-- ==== Sys2Proof/Word.lean ====
section
/-! DEFINITION. The words of the block (00_scope.md rule R9): bytes, setpoint words, the step selector. -/

namespace Sys2Proof

/-- An unsigned 8-bit value (R9, R70). -/
abbrev Byte := BitVec 8

/-- A 32-bit pattern; one setpoint as its two's-complement word (R9, R23). -/
abbrev Word := BitVec 32

/-- The step selector `S` (R78). -/
abbrev Sel := BitVec 16

/-- `sint32(w)`: the integer whose 32-bit two's-complement pattern is `w` (R9). -/
abbrev sint32 (w : Word) : Int := w.toInt

/-- `u32(x)`: the 32-bit pattern of `x` modulo `2^32` (R9). -/
abbrev u32 (x : Int) : Word := BitVec.ofInt 32 x

end Sys2Proof
end

