-- ==== Sys2Proof/Config.lean ====
section
/-! DEFINITION. What an implementation fixes (00_scope.md rule R6) and the values the spec leaves open. -/

namespace Sys2Proof

/-- The implementation parameters that a rule reads (R6). They are carried in State and written by no
operation (R7), so that every rule is modelled for every legal value (log 1, DESIGN CHOICE, safe). -/
structure Params where
  /-- `N`: channel count, setpoints per frame, frame buffer length; integer ≥ 1. -/
  channels : Nat
  /-- `BYTE_BUF_CAP`: byte buffer cells; integer ≥ 4. -/
  byteBufCap : Nat
  deriving DecidableEq, Repr

namespace Config

/-- `WORD_BYTES`: bytes per setpoint word, 4 only (R6). -/
def wordBytes : Nat := 4

/-- `WORD_WIDTH`: bits per setpoint, 32 only (R6). -/
def wordWidth : Nat := 32

/-- The values of R6's column "this hardware": `N = 6`, `BYTE_BUF_CAP = 4`. -/
def thisHardware : Params := { channels := 6, byteBufCap := 4 }

/-- `FRAME_BYTES = WORD_BYTES * N` (R6). -/
def frameBytes (p : Params) : Nat := wordBytes * p.channels

/-- `IDLE_DELAY`, left OPEN (R6, D16): a duration in a unit the spec does not name; no rule reads it (R176).
No body: nothing can evaluate it (log 12, DESIGN CHOICE, safe). -/
opaque idleDelay : Nat

/-- What byte cell `k` holds after a RESET (R230 "unspecified", U5): the free value of draw `d` (log 3, safe). -/
opaque unspecifiedByte : (d : Nat) → (k : Nat) → Byte

/-- What frame cell `i` holds after a RESET (R230 "unspecified", U5): the free value of draw `d` (log 3, safe). -/
opaque unspecifiedWord : (d : Nat) → (i : Nat) → Word

end Config

end Sys2Proof
end

