-- ==== Sys2Proof/Syntax.lean ====
section
/-! DEFINITION. The ten operations of opcode_table.json, and the stimulus notation of 30_encoding.md section 4. -/

namespace Sys2Proof

/-- The operations of a step, one constructor per row of opcode_table.json (R79), in the table's order.
The PUSH operations carry their one operand, the byte `data = S[7:0]` (R81). -/
inductive Instr
  | reset
  | halt
  | check
  | dispatch
  | idle
  | pushB0 (data : Byte)
  | pushB1 (data : Byte)
  | pushB2 (data : Byte)
  | pushW (data : Byte)
  | pushF (data : Byte)
  deriving DecidableEq, Repr

namespace Instr

/-- The mnemonic of the operation's row in opcode_table.json. -/
def mnemonic : Instr → String
  | reset => "RESET"
  | halt => "HALT"
  | check => "CHECK"
  | dispatch => "DISPATCH"
  | idle => "IDLE"
  | pushB0 _ => "PUSH.B0"
  | pushB1 _ => "PUSH.B1"
  | pushB2 _ => "PUSH.B2"
  | pushW _ => "PUSH.W"
  | pushF _ => "PUSH.F"

/-- The byte a PUSH operation carries; none for the others (R81). -/
def operand : Instr → Option Byte
  | reset => none
  | halt => none
  | check => none
  | dispatch => none
  | idle => none
  | pushB0 b => some b
  | pushB1 b => some b
  | pushB2 b => some b
  | pushW b => some b
  | pushF b => some b

end Instr

/-- One line of a stimulus program (R82). -/
inductive Line
  /-- one step with `rst = 1` -/
  | reset
  /-- one poll with `rst = 0`, `src_avail = 0` -/
  | idle
  /-- one poll with `rst = 0`, `src_avail = 1`, `src_data = b` -/
  | byte (b : Byte)
  deriving DecidableEq, Repr

/-- A line or a pseudo-line of a stimulus program (R82, R83). -/
inductive PseudoLine
  | line (l : Line)
  | bytes (bs : List Byte)
  | word (v : Int)
  | frame (vs : List Int)
  | idles (n : Nat)
  deriving DecidableEq, Repr

end Sys2Proof
end

