-- ==== Sys2Proof/WellFormed.lean ====
section
/-! DEFINITION. The checks on terms: parameters (R6), operations (R73, R80), stimulus lines (R82, R83). -/

namespace Sys2Proof

/-- The legal values of R6: `N ≥ 1`, `BYTE_BUF_CAP ≥ 4`. -/
def Params.wf (p : Params) : Bool := decide (1 ≤ p.channels) && decide (4 ≤ p.byteBufCap)

/-- Every operation is well formed: no selector value is reserved (R80) and every byte value is legal
data (R73), which the type of the operand already says. -/
def Instr.wf : Instr → Bool
  | .reset => true
  | .halt => true
  | .check => true
  | .dispatch => true
  | .idle => true
  | .pushB0 _ => true
  | .pushB1 _ => true
  | .pushB2 _ => true
  | .pushW _ => true
  | .pushF _ => true

/-- Membership in `int32`: `-2^31 .. 2^31-1` (R9). -/
def isInt32 (v : Int) : Bool := decide (-2147483648 ≤ v) && decide (v ≤ 2147483647)

/-- R83: `WORD v` takes an int32, `FRAME` takes exactly `N` of them. -/
def PseudoLine.wf (p : Params) : PseudoLine → Bool
  | .line _ => true
  | .bytes _ => true
  | .word v => isInt32 v
  | .frame vs => decide (vs.length = p.channels) && vs.all isInt32
  | .idles _ => true

end Sys2Proof
end

