-- ==== Sys2Proof/Machine/State.lean ====
section
/-! DEFINITION. The state of the block (10_state.md), its outputs and its environment, as plain data; reset. -/

namespace Sys2Proof.Machine

/-- The values of the fault register (R27, R201). -/
inductive FaultCode
  /-- NONE, code 0 -/
  | noFault
  /-- BYTE_OVERRUN, code 1 -/
  | byteOverrun
  /-- FRAME_OVERRUN, code 2 -/
  | frameOverrun
  deriving DecidableEq, Repr

/-- The 2-bit code of R201; code 3 is reserved and never produced. -/
def FaultCode.code : FaultCode → BitVec 2
  | .noFault => 0#2
  | .byteOverrun => 1#2
  | .frameOverrun => 2#2

/-- The output events (R11, R77). -/
inductive Event
  /-- the read of byte `b` from the input source -/
  | srcRead (b : Byte)
  /-- one telemetry record, as a byte string (R74) -/
  | telemetry (t : List Byte)
  /-- one actuator call -/
  | setChannel (i : Nat) (v : Word)
  /-- the assertion of the fault output with its code -/
  | faultOut (code : BitVec 2)
  deriving DecidableEq, Repr

/-- What the environment does at one step (R8, R170, D17). -/
structure Draw where
  /-- the `rst` input -/
  rst : Bool
  /-- the bytes that reach the input source before the step, in sender order (R38) -/
  arrivals : List Byte
  /-- what `src_data` carries while no byte is available; meaningless (R76; log 5) -/
  floatData : Byte
  deriving DecidableEq, Repr

/-- The draw of an environment that does nothing: used when no draw is listed (log 4, DESIGN CHOICE). -/
def Draw.quiet : Draw := { rst := false, arrivals := [], floatData := 0#8 }

/-- Host-level faults. The block's own faults (R200) are recorded in `State.fault` and are next states, not these. -/
inductive Fault
  /-- Raised by PUSH and DISPATCH when a buffer lacks a cell its parameter says it has (R21, R23): such a state is no
  state of the block. SAFE (log 8): unreachable from reset. -/
  | noSuchCell
  deriving DecidableEq, Repr

/-- Refusals. -/
inductive Refusal
  /-- Raised by an arm of `exec` that has no meaning yet; no arm uses it. SAFE. -/
  | notModelled (mnemonic : String)
  /-- Raised by a PUSH that is run where the input source does not offer its operand byte: a forced read, which "a
  model refuses, as unmodelled" (R218, U3). SAFE (log 7): no step does it. -/
  | readNotOffered
  /-- Raised by `step` if no row selects the selector. SAFE: never happens (R80). -/
  | noSelectorRow
  deriving DecidableEq, Repr

/-- The state: the block's record (R20), its parameters (R6), its outputs (R77) and its environment (R8, R38). -/
structure State where
  /-- `N` and `BYTE_BUF_CAP` (R6); written by no operation (R7; log 1) -/
  params : Params
  /-- `byte_buf`: `BYTE_BUF_CAP` cells (R21) -/
  byteBuf : List Byte
  /-- `byte_cursor` (R22) -/
  byteCursor : Nat
  /-- `frame_buf`: `N` cells (R23) -/
  frameBuf : List Word
  /-- `frame_cursor` (R24); with `N` it also gives `phase` (R25) -/
  frameCursor : Nat
  /-- `fault` (R27) -/
  fault : FaultCode
  /-- the bytes sent and not yet read, head first (R38; environment state) -/
  source : List Byte
  /-- the environment's coming draws, one per step (R8, D17; log 4) -/
  draws : List Draw
  /-- `src_read` in the last step (R76, R170) -/
  srcRead : Bool
  /-- the concatenated event lists of the steps, oldest first (R77; log 6) -/
  outputs : List Event
  /-- the model's own counter of free values drawn by RESET (log 3) -/
  unspecDraws : Nat
  deriving DecidableEq, Repr

/-- The block with parameters `p` right after RESET (R31, R230). The buffer cells, which R31 leaves unspecified and
lets a model give any value, are 0 here (log 2, DESIGN CHOICE, unsafe); nothing is in the source, no draw is listed. -/
def State.resetWith (p : Params) : State where
  params := p
  byteBuf := List.replicate p.byteBufCap 0#8
  byteCursor := 0
  frameBuf := List.replicate p.channels 0#32
  frameCursor := 0
  fault := .noFault
  source := []
  draws := []
  srcRead := false
  outputs := []
  unspecDraws := 0

/-- This hardware right after reset: `N = 6`, `BYTE_BUF_CAP = 4` (R6, R31). -/
def State.reset : State := State.resetWith Config.thisHardware

end Sys2Proof.Machine
end

