-- ==== Sys2Proof/Machine/Operands.lean ====
section
/-! DEFINITION. Operand assembly and output formats: the Integer Decoder (41_decoder.md), the sender's inverse (R126),
decimal rendering and the telemetry record (R74, R75), the channel index width (R6). -/

namespace Sys2Proof.Machine

/-- `u` of R120: the four bytes, each zero-extended before its shift (R121), first byte least significant. As a
32-bit pattern it is the word of the setpoint `sint32 u` (R122). -/
def wordOf (b0 b1 b2 b3 : Byte) : Word :=
  b0.setWidth 32 + (b1.setWidth 32 <<< 8) + (b2.setWidth 32 <<< 16) + (b3.setWidth 32 <<< 24)

/-- `decode(b0, b1, b2, b3)` as an integer (R120). -/
def decodeInt (b0 b1 b2 b3 : Byte) : Int := sint32 (wordOf b0 b1 b2 b3)

/-- Byte `k` of a word: bits `[8k+7:8k]` (R126). -/
def byteOf (w : Word) (k : Nat) : Byte := w.extractLsb' (8 * k) 8

/-- The sender's bytes of a word, in arrival order (R126, R83). -/
def bytesOf (w : Word) : List Byte := [byteOf w 0, byteOf w 1, byteOf w 2, byteOf w 3]

/-- ASCII digit of `n < 10`: 0x30..0x39 (R75). -/
def digit (n : Nat) : Byte := BitVec.ofNat 8 (0x30 + n)

/-- The decimal digits of `n`, most significant first, no leading zero; `fuel` bounds their number (R75). -/
def decDigits : (fuel : Nat) → (n : Nat) → List Byte
  | 0, _ => []
  | fuel + 1, n => if n < 10 then [digit n] else decDigits fuel (n / 10) ++ [digit (n % 10)]

/-- `dec(v)` (R75): "-" (0x2D) before the digits of `-v` for a negative value; 10 digits hold every int32. -/
def dec (v : Word) : List Byte :=
  if v.toInt < 0 then 0x2D#8 :: decDigits 10 v.toInt.natAbs else decDigits 10 v.toInt.natAbs

/-- `;` (R74). -/
def semicolon : Byte := 0x3B#8

/-- Line feed (R74). -/
def newline : Byte := 0x0A#8

/-- `render(F)`: `dec(F[0]) ++ ";" ++ ... ++ "\n"` (R74, R143). -/
def render : List Word → List Byte
  | [] => [newline]
  | v :: vs => dec v ++ semicolon :: render vs

/-- `SetChannel(i, F[0]), SetChannel(i+1, F[1]), ...` in index order (R144). -/
def channelCalls : (i : Nat) → List Word → List Event
  | _, [] => []
  | i, v :: vs => .setChannel i v :: channelCalls (i + 1) vs

/-- `ceil(log2 N)` (R6). -/
def ceilLog2 (n : Nat) : Nat := if n ≤ 1 then 0 else Nat.log2 (n - 1) + 1

/-- `CHAN_IDX_WIDTH = ceil(log2 N)`, at least 1 (R6, D21). -/
def chanIdxWidth (p : Params) : Nat := max 1 (ceilLog2 p.channels)

/-- The channel index as the `act_index` port carries it (R76). -/
def actIndexPort (p : Params) (i : Nat) : BitVec (chanIdxWidth p) := BitVec.ofNat _ i

end Sys2Proof.Machine
end

