-- ==== Sys2Proof/Machine/Flags.lean ====
section
/-! DEFINITION. The status conditions (R25, R28, R32), the port functions (R76) and the step selector (R78). -/

namespace Sys2Proof.Machine

/-- The states of the Assembler's state machine (R25, R148). -/
inductive Phase
  | accumulating (k : Nat)
  | dispatching
  deriving DecidableEq, Repr

/-- `phase(s)`: a function of the frame cursor; none where R24's bound is broken (R25). -/
def phase (s : State) : Option Phase :=
  if s.frameCursor < s.params.channels then some (.accumulating s.frameCursor)
  else if s.frameCursor = s.params.channels then some .dispatching
  else none

/-- `INV(s)`: `byte_cursor ≤ 3` and `frame_cursor ≤ N` (R28). -/
def inv (s : State) : Bool := decide (s.byteCursor ≤ 3) && decide (s.frameCursor ≤ s.params.channels)

/-- `faulted`: `s.fault ≠ NONE` (R78). -/
def faulted (s : State) : Bool := decide (s.fault ≠ .noFault)

/-- `disp`: `s.frame_cursor = N`; reads the cursor alone, never the buffer (R26, R141, R78). -/
def disp (s : State) : Bool := decide (s.frameCursor = s.params.channels)

/-- `last`: `s.frame_cursor = N - 1` (R78). -/
def last (s : State) : Bool := decide (s.frameCursor + 1 = s.params.channels)

/-- The `src_avail` input: the source has a byte; sampling it has no side effect (R58, R76). -/
def srcAvail (s : State) : Bool := !s.source.isEmpty

/-- The `src_data` input: the head of the source, and `floatData` while there is none (R76; log 5). -/
def srcData (s : State) (floatData : Byte) : Byte := s.source.headD floatData

/-- The `fault` output port (R76). -/
def faultPort (s : State) : Bool := faulted s

/-- The `fault_code` output port (R76, R201). -/
def faultCodePort (s : State) : BitVec 2 := s.fault.code

/-- The step selector `S` (R78), bit 15 first. -/
def selector (rst : Bool) (floatData : Byte) (s : State) : Sel :=
  BitVec.ofBool rst ++ BitVec.ofBool (faulted s) ++ BitVec.ofBool (!inv s) ++ BitVec.ofBool (disp s) ++
    BitVec.ofBool (srcAvail s) ++ BitVec.ofNat 2 s.byteCursor ++ BitVec.ofBool (last s) ++ srcData s floatData

/-- "Between frames": both cursors 0 with no DISPATCH pending (R174), the only safe point to stop (R237). -/
def betweenFrames (s : State) : Bool :=
  decide (s.frameCursor = 0) && decide (s.byteCursor = 0) && !disp s

end Sys2Proof.Machine
end

