-- ==== Sys2Proof/Machine/Ops.lean ====
section
/-! DEFINITION. The named operations over the state: single-field writes, reading the source (R57), storing a byte
(R101 to R105), APPEND (R140), raising a fault (R204) and leaving it (R207, R230). -/

namespace Sys2Proof.Machine

namespace State

/-- Write cell `k` of `byte_buf`. -/
def setByteCell (k : Nat) (b : Byte) (s : State) : State := { s with byteBuf := s.byteBuf.set k b }

/-- Write `byte_cursor`. -/
def setByteCursor (c : Nat) (s : State) : State := { s with byteCursor := c }

/-- Write cell `i` of `frame_buf`. -/
def setFrameCell (i : Nat) (w : Word) (s : State) : State := { s with frameBuf := s.frameBuf.set i w }

/-- Write `frame_cursor`. -/
def setFrameCursor (c : Nat) (s : State) : State := { s with frameCursor := c }

/-- Write the fault register. -/
def setFault (c : FaultCode) (s : State) : State := { s with fault := c }

/-- Drive `src_read`. -/
def setSrcRead (r : Bool) (s : State) : State := { s with srcRead := r }

/-- Replace what the source holds. -/
def setSource (bs : List Byte) (s : State) : State := { s with source := bs }

/-- Replace the coming draws. -/
def setDraws (ds : List Draw) (s : State) : State := { s with draws := ds }

/-- Append this step's events to the outputs (R77). -/
def emit (es : List Event) (s : State) : State := { s with outputs := s.outputs ++ es }

/-- Every cell of both buffers takes a fresh free value (R230 "unspecified"; log 3). -/
def forgetBuffers (s : State) : State :=
  { s with
    byteBuf := (List.range s.params.byteBufCap).map (Config.unspecifiedByte s.unspecDraws)
    frameBuf := (List.range s.params.channels).map (Config.unspecifiedWord s.unspecDraws)
    unspecDraws := s.unspecDraws + 1 }

end State

/-- `read_source()` (R57): pops the head byte, asserts `src_read`, emits `SrcRead` (R100). None where the source does
not offer the operand byte `b`: the forced read of R218 (log 7). -/
def readSource (b : Byte) (s : State) : Option State :=
  match s.source with
  | [] => none
  | c :: rest => if c = b then some (((s.setSource rest).setSrcRead true).emit [.srcRead b]) else none

/-- `s.byte_buf[k] <- b`; none where the array has no such cell (log 8). -/
def storeByte (k : Nat) (b : Byte) (s : State) : Option State :=
  if k < s.byteBuf.length then some (s.setByteCell k b) else none

/-- `decode(byte_buf[0], byte_buf[1], byte_buf[2], b)`: the word of the group that `b` completes (R104, R107). -/
def groupWord (b : Byte) (s : State) : Option Word :=
  match s.byteBuf[0]?, s.byteBuf[1]?, s.byteBuf[2]? with
  | some b0, some b1, some b2 => some (wordOf b0 b1 b2 b)
  | _, _, _ => none

/-- The writes of APPEND(w) once its assertion holds (R140); none where `frame_buf` has no such cell (log 8). -/
def append (w : Word) (s : State) : Option State :=
  if s.frameCursor < s.frameBuf.length then
    some ((s.setFrameCell s.frameCursor w).setFrameCursor (s.frameCursor + 1))
  else none

/-- TAKING A FAULT, `raise Fault(code)` (R204): writes the fault register and nothing else of the block (R205), emits
`FaultOut(code)` as the step's only event, reads nothing. -/
def raiseFault (c : FaultCode) (s : State) : State :=
  ((s.setFault c).setSrcRead false).emit [.faultOut c.code]

/-- LEAVING A FAULT: there is no return operation; RESET alone clears the register and re-initialises every field
(R207, R230). The source, the outputs and the parameters are not the block's to clear. -/
def clearBlock (s : State) : State :=
  ((((s.forgetBuffers).setByteCursor 0).setFrameCursor 0).setFault .noFault).setSrcRead false

/-- `F = (frame_buf[0], ..., frame_buf[N-1])` (R142); none where the array lacks a cell (log 8). -/
def frameCells (s : State) : Option (List Word) :=
  if s.params.channels ≤ s.frameBuf.length then some (s.frameBuf.take s.params.channels) else none

/-- The cause CHECK records: BYTE_OVERRUN wins over FRAME_OVERRUN (R173, R209). -/
def overrunCause (s : State) : FaultCode := if s.byteCursor ≥ 4 then .byteOverrun else .frameOverrun

end Sys2Proof.Machine
end

