-- ==== Sys2Proof/Machine/Accumulator.lean ====
section
/-! DEFINITION. The PUSH family: the Byte Accumulator (40_accumulator.md). -/

namespace Sys2Proof.Machine

/-- The shape of R101 to R103: read `b`, store it in cell `k`, leave the cursor at `k + 1`. -/
def pushByte (k : Nat) (b : Byte) (s : State) : Host.Outcome State Fault Refusal :=
  match readSource b s with
  | none => .refused .readNotOffered
  | some r =>
    match storeByte k b r with
    | none => .fault .noSuchCell
    | some t => .next (t.setByteCursor (k + 1))

/-- The writes of R104 and R105 once the byte is read: cell 3, the decoded word appended, the cursor back to 0. -/
def completeWord (b : Byte) (s : State) : Option State :=
  match storeByte 3 b s, groupWord b s with
  | some t, some w => append w (t.setByteCursor 0)
  | _, _ => none

/-- The shape of R104 and R105. APPEND's assertion `k < N` is tested with the read made; where it fails the step
raises FRAME_OVERRUN and every other write of the step, the read among them, is dropped (R140, R204, R205; log 9). -/
def pushWord (b : Byte) (s : State) : Host.Outcome State Fault Refusal :=
  match readSource b s with
  | none => .refused .readNotOffered
  | some r =>
    if s.frameCursor < s.params.channels then
      match completeWord b r with
      | none => .fault .noSuchCell
      | some t => .next t
    else .next (raiseFault .frameOverrun s)

/-- PUSH.B0: store the first byte of a word group (R101). -/
def execPushB0 (b : Byte) (s : State) : Host.Outcome State Fault Refusal := pushByte 0 b s

/-- PUSH.B1: store the second byte of a word group (R102). -/
def execPushB1 (b : Byte) (s : State) : Host.Outcome State Fault Refusal := pushByte 1 b s

/-- PUSH.B2: store the third byte of a word group (R103). -/
def execPushB2 (b : Byte) (s : State) : Host.Outcome State Fault Refusal := pushByte 2 b s

/-- PUSH.W: store the fourth byte, decode, append to a frame that is not yet full (R104). -/
def execPushW (b : Byte) (s : State) : Host.Outcome State Fault Refusal := pushWord b s

/-- PUSH.F: store the fourth byte, decode, append as the last setpoint of the frame (R105). -/
def execPushF (b : Byte) (s : State) : Host.Outcome State Fault Refusal := pushWord b s

end Sys2Proof.Machine
end

