-- ==== Sys2Proof/Machine/Assembler.lean ====
section
/-! DEFINITION. DISPATCH: the Frame Assembler / Dispatcher (42_frame_assembler.md). -/

namespace Sys2Proof.Machine

/-- The event list of a dispatch: the record, then the N calls in index order (R142 to R144, R151). -/
def dispatchEvents (F : List Word) : List Event := .telemetry (render F) :: channelCalls 0 F

/-- DISPATCH: emit and apply the completed frame, then restart the frame; one atomic step (R142, R61). The source is
not read and the buffers are retained (R145, R146). -/
def execDispatch (s : State) : Host.Outcome State Fault Refusal :=
  match frameCells s with
  | none => .fault .noSuchCell
  | some F => .next (((s.emit (dispatchEvents F)).setFrameCursor 0).setSrcRead false)

end Sys2Proof.Machine
end

