-- ==== Sys2Proof/Machine/PollLoop.lean ====
section
/-! DEFINITION. IDLE, HALT and CHECK: the poll loop (43_poll_loop.md). -/

namespace Sys2Proof.Machine

/-- IDLE: the poll finds no byte; no state written, no event, `src_read = 0` (R171). -/
def execIdle (s : State) : Host.Outcome State Fault Refusal := .next (s.setSrcRead false)

/-- HALT: the block is faulted; no state written, no event, `src_read = 0` (R172). -/
def execHalt (s : State) : Host.Outcome State Fault Refusal := .next (s.setSrcRead false)

/-- CHECK: an invariant is broken; raises the fault of its cause (R173). -/
def execCheck (s : State) : Host.Outcome State Fault Refusal := .next (raiseFault (overrunCause s) s)

/-- The wait that labels a step: IDLE_DELAY for IDLE, nothing for the others; timing only, no rule reads it
(R171, R176; log 12). -/
def waitOf : Instr → Nat
  | .idle => Config.idleDelay
  | .reset => 0
  | .halt => 0
  | .check => 0
  | .dispatch => 0
  | .pushB0 _ => 0
  | .pushB1 _ => 0
  | .pushB2 _ => 0
  | .pushW _ => 0
  | .pushF _ => 0

end Sys2Proof.Machine
end

