-- ==== Sys2Proof/Machine/ResetOp.lean ====
section
/-! DEFINITION. RESET (70_reset_and_hazards.md). -/

namespace Sys2Proof.Machine

/-- RESET: both cursors 0, fault NONE, buffer contents unspecified; no event, no read (R230). -/
def execReset (s : State) : Host.Outcome State Fault Refusal := .next (clearBlock s)

end Sys2Proof.Machine
end

