-- ==== Sys2Proof/Machine/Dispatch.lean ====
section
/-! DEFINITION. One arm per operation of opcode_table.json (R170). -/

namespace Sys2Proof.Machine

def exec (i : Instr) (s : State) : Host.Outcome State Fault Refusal :=
  match i with
  | .reset => Sys2Proof.Machine.execReset s
  | .halt => Sys2Proof.Machine.execHalt s
  | .check => Sys2Proof.Machine.execCheck s
  | .dispatch => Sys2Proof.Machine.execDispatch s
  | .idle => Sys2Proof.Machine.execIdle s
  | .pushB0 b => Sys2Proof.Machine.execPushB0 b s
  | .pushB1 b => Sys2Proof.Machine.execPushB1 b s
  | .pushB2 b => Sys2Proof.Machine.execPushB2 b s
  | .pushW b => Sys2Proof.Machine.execPushW b s
  | .pushF b => Sys2Proof.Machine.execPushF b s

end Sys2Proof.Machine
end

