-- ==== Sys2Proof/Decode.lean ====
section
/-! DEFINITION. The operation map of 30_encoding.md section 3: selecting an operation from the step selector by mask
and match (R79), and the encoder written from the same table. -/

namespace Sys2Proof

/-- Why a word is rejected. -/
inductive DecodeError
  /-- no row of R79 selects the word; never happens (R80) -/
  | noRow
  /-- the word is wider than the 16 bits of a selector -/
  | wordTooWide
  deriving DecidableEq, Repr

/-- One row of R79: the operation is selected when `S &&& mask = pattern`. -/
structure Row where
  mask : Sel
  pattern : Sel
  build : Byte → Instr

/-- `S & mask = match` (R79). -/
def Row.selects (r : Row) (S : Sel) : Bool := S &&& r.mask == r.pattern

/-- The operation map, in the order of R79. -/
def rows : List Row :=
  [ { mask := 0x8000#16, pattern := 0x8000#16, build := fun _ => .reset },
    { mask := 0xC000#16, pattern := 0x4000#16, build := fun _ => .halt },
    { mask := 0xE000#16, pattern := 0x2000#16, build := fun _ => .check },
    { mask := 0xF000#16, pattern := 0x1000#16, build := fun _ => .dispatch },
    { mask := 0xF800#16, pattern := 0x0000#16, build := fun _ => .idle },
    { mask := 0xFE00#16, pattern := 0x0800#16, build := .pushB0 },
    { mask := 0xFE00#16, pattern := 0x0A00#16, build := .pushB1 },
    { mask := 0xFE00#16, pattern := 0x0C00#16, build := .pushB2 },
    { mask := 0xFF00#16, pattern := 0x0E00#16, build := .pushW },
    { mask := 0xFF00#16, pattern := 0x0F00#16, build := .pushF } ]

/-- The operand field `data = S[7:0]` (R78, R81). -/
def dataOf (S : Sel) : Byte := S.extractLsb' 0 8

/-- The operation of a selector: the row of R79 that selects it. -/
def decode (S : Sel) : Except DecodeError Instr :=
  match rows.find? (fun r => r.selects S) with
  | some r => .ok (r.build (dataOf S))
  | none => .error .noRow

/-- A word of `nbits` bits, the missing upper bits 0, read as a selector; a wider one is rejected by name. -/
def decodeWord (nbits w : Nat) : Except DecodeError Instr :=
  if nbits ≤ 16 ∧ w < 2 ^ nbits then decode (BitVec.ofNat 16 w) else .error .wordTooWide

/-- The decoder as the host reads it: bit 0 of `w` is `S[0]`. -/
def decodeTableWord (nbits w : Nat) : Option Instr :=
  match decodeWord nbits w with
  | .ok i => some i
  | .error _ => none

/-- The selector with the row's match value, the operand in `S[7:0]` and every don't-care bit 0 (R79, R81). -/
def encode : Instr → Sel
  | .reset => 0x8000#16
  | .halt => 0x4000#16
  | .check => 0x2000#16
  | .dispatch => 0x1000#16
  | .idle => 0x0000#16
  | .pushB0 b => 0x0800#16 ||| b.setWidth 16
  | .pushB1 b => 0x0A00#16 ||| b.setWidth 16
  | .pushB2 b => 0x0C00#16 ||| b.setWidth 16
  | .pushW b => 0x0E00#16 ||| b.setWidth 16
  | .pushF b => 0x0F00#16 ||| b.setWidth 16

end Sys2Proof
end

