-- ==== Sys2Proof/Machine/Fetch.lean ====
section
/-! DEFINITION. How a step comes by its operation: sampling the inputs, forming the selector, selecting the row (R78,
R79, R170); and arranging a state so that a given operation is selected next. -/

namespace Sys2Proof.Machine

/-- What the environment does at the coming step; nothing where no draw is listed (log 4). -/
def nextDraw (s : State) : Draw := s.draws.headD .quiet

/-- The state at the moment the selector is formed: the draw is taken, its bytes have joined the source (R38). -/
def sample (s : State) : State := (s.setSource (s.source ++ (nextDraw s).arrivals)).setDraws s.draws.tail

/-- The selector of the coming step (R78). -/
def nextSelector (s : State) : Sel := selector (nextDraw s).rst (nextDraw s).floatData (sample s)

/-- The operation of the coming step (R170). -/
def fetch (s : State) : Except DecodeError Instr := decode (nextSelector s)

/-- `s` with one more draw before the listed ones: `rst` as given, nothing arriving. -/
def withDraw (rst : Bool) (floatData : Byte) (s : State) : State :=
  s.setDraws ({ rst := rst, arrivals := [], floatData := floatData } :: s.draws)

/-- A healthy `s`: not faulted, the byte cursor as given, the frame cursor inside the frame (log 11). -/
def accumulatingAt (bc fc : Nat) (s : State) : State :=
  ((s.setFault .noFault).setByteCursor bc).setFrameCursor fc

/-- A frame cursor that is not the last of the frame: the present one where it is, else 0. -/
def notLastCursor (s : State) : Nat := if s.frameCursor + 1 < s.params.channels then s.frameCursor else 0

/-- A frame cursor of an accumulating block: the present one where it is, else 0. -/
def openCursor (s : State) : Nat := if s.frameCursor < s.params.channels then s.frameCursor else 0

/-- `s` with byte `b` at the head of the source. -/
def offering (b : Byte) (s : State) : State := s.setSource (b :: s.source)

/-- `s` arranged so that its selector selects the operation `i` (R79; log 11): only the fields the selector reads. -/
def arrange (i : Instr) (s : State) : State :=
  match i with
  | .reset => s
  | .halt => s.setFault (if s.fault = .noFault then .byteOverrun else s.fault)
  | .check => (s.setFault .noFault).setByteCursor (if inv s then 4 else s.byteCursor)
  | .dispatch => accumulatingAt (if s.byteCursor ≤ 3 then s.byteCursor else 0) s.params.channels s
  | .idle => (accumulatingAt (if s.byteCursor ≤ 3 then s.byteCursor else 0) (openCursor s) s).setSource []
  | .pushB0 b => offering b (accumulatingAt 0 (openCursor s) s)
  | .pushB1 b => offering b (accumulatingAt 1 (openCursor s) s)
  | .pushB2 b => offering b (accumulatingAt 2 (openCursor s) s)
  | .pushW b => offering b (accumulatingAt 3 (notLastCursor s) s)
  | .pushF b => offering b (accumulatingAt 3 (s.params.channels - 1) s)

/-- Whether the operation is selected with `rst = 1` (R79). -/
def wantsReset (i : Instr) : Bool := decide (i = .reset)

end Sys2Proof.Machine
end

