-- ==== Sys2Proof/Machine/Step.lean ====
section
/-! DEFINITION. The step (R170), and placing an operation where the next step selects it. -/

namespace Sys2Proof.Machine

/-- One step of the block: sample the inputs, select the operation, run it (R170). -/
def step (s : State) : Host.Outcome State Fault Refusal :=
  match fetch s with
  | .ok i => exec i (sample s)
  | .error _ => .refused .noSelectorRow

/-- `s` arranged so that the very next step selects and runs the operation of the word (log 11). The block stores no
program (R64): the word is the selector its inputs and state form, so those are what is set. -/
def State.withFetchWord (s : State) (nbits w : Nat) : State :=
  match decodeTableWord nbits w with
  | some i => withDraw (wantsReset i) (BitVec.ofNat 8 w) (arrange i s)
  | none => s

end Sys2Proof.Machine
end

