-- ==== Sys2Proof/Machine/Stimulus.lean ====
section
/-! DEFINITION. The stimulus notation and its runner (30_encoding.md rules R82, R83). -/

namespace Sys2Proof.Machine

/-- The lines a pseudo-line stands for (R83). -/
def expand : PseudoLine → List Line
  | .line l => [l]
  | .bytes bs => bs.map .byte
  | .word v => (bytesOf (u32 v)).map .byte
  | .frame vs => (vs.flatMap fun v => bytesOf (u32 v)).map .byte
  | .idles n => List.replicate n .idle

/-- The lines of a whole program. -/
def expandAll (ps : List PseudoLine) : List Line := ps.flatMap expand

/-- The runner: the block, the bytes offered and left unread, and the operations taken, oldest first (R82). -/
structure Runner where
  state : State
  unread : List Byte
  ops : List Instr
  deriving DecidableEq, Repr

/-- What a line offers on the source ports (R82). -/
def lineOffer : Line → List Byte
  | .reset => []
  | .idle => []
  | .byte b => [b]

/-- The `rst` input of a line (R82). -/
def lineRst : Line → Bool
  | .reset => true
  | .idle => false
  | .byte _ => false

/-- The block with the inputs of a line presented: the line's byte, and nothing else, in the source (log 17). -/
def present (l : Line) (s : State) : State :=
  (s.setSource (lineOffer l)).setDraws [{ rst := lineRst l, arrivals := [], floatData := 0#8 }]

/-- The operation the block takes with the inputs of a line (R82 "it forms `S`"). -/
def selectedBy (l : Line) (s : State) : Except DecodeError Instr := fetch (present l s)

/-- Whether `S` selects DISPATCH or CHECK, which consume no line (R82 (a)). -/
def waits (l : Line) (s : State) : Bool :=
  match selectedBy l s with
  | .ok .dispatch => true
  | .ok .check => true
  | _ => false

/-- One step with the inputs of a line; the ports are empty afterwards. None if the step stops. -/
def takeStep (l : Line) (r : Runner) : Option Runner :=
  match selectedBy l r.state, step (present l r.state) with
  | .ok i, .next t => some { r with state := (t.setSource []).setDraws [], ops := r.ops ++ [i] }
  | _, _ => none

/-- Steps taken while `S` selects DISPATCH or CHECK, at most `fuel` of them (R82 (a), (c)). -/
def settle (l : Line) : (fuel : Nat) → Runner → Option Runner
  | 0, r => some r
  | fuel + 1, r => if waits l r.state then (takeStep l r).bind (settle l fuel) else some r

/-- The steps that can wait in a row: after a DISPATCH the frame cursor is 0, after a CHECK the block is faulted, so
one for every legal `N`; two are allowed (log 17). -/
def settleFuel : Nat := 2

/-- The bytes a consumed line adds to the unread ones: its byte, where the step did not read it (R82 (b)). -/
def leftUnread (l : Line) (t : State) : List Byte := if t.srcRead then [] else lineOffer l

/-- One line: the waiting steps, then the step that consumes it (R82 (a), (b)). -/
def runLine (l : Line) (r : Runner) : Option Runner :=
  match (settle l settleFuel r).bind (takeStep l) with
  | some t => some { t with unread := t.unread ++ leftUnread l t.state }
  | none => none

/-- The lines in order, then the waiting steps with `rst = 0`, `src_avail = 0` (R82 (c)). -/
def runLines : List Line → Runner → Option Runner
  | [], r => settle .idle settleFuel r
  | l :: ls, r => (runLine l r).bind (runLines ls)

/-- A program run from a state. -/
def runProgram (ps : List PseudoLine) (s : State) : Option Runner :=
  runLines (expandAll ps) { state := s, unread := [], ops := [] }

end Sys2Proof.Machine
end

