-- ==== Sys2Proof/Safety.lean ====
section
/-! DEFINITION. What counts as a good state and a safe run, and the projections of the outputs that claims use. -/

namespace Sys2Proof.Machine

/-- The arrays have the lengths of their parameters and the parameters are legal (R6, R21, R23). -/
abbrev State.Shaped (s : State) : Prop :=
  1 ≤ s.params.channels ∧ 4 ≤ s.params.byteBufCap ∧ s.byteBuf.length = s.params.byteBufCap ∧
    s.frameBuf.length = s.params.channels

/-- `INV(s)` of R28, with the byte cursor 0 in phase DISPATCHING (R146). -/
abbrev State.Ordered (s : State) : Prop :=
  s.byteCursor ≤ 3 ∧ s.frameCursor ≤ s.params.channels ∧ (s.frameCursor = s.params.channels → s.byteCursor = 0)

/-- A good state: shaped and ordered. -/
abbrev State.Good (s : State) : Prop := s.Shaped ∧ s.Ordered

/-- `fault = NONE`. -/
abbrev State.Healthy (s : State) : Prop := s.fault = .noFault

/-- A state in which the next byte read is byte 0 of channel 0's word (R232). -/
abbrev State.AtFrameStart (s : State) : Prop :=
  s.Shaped ∧ s.Healthy ∧ s.byteCursor = 0 ∧ s.frameCursor = 0

/-- No listed draw asserts `rst`. -/
abbrev State.NoReset (s : State) : Prop := ∀ d ∈ s.draws, d.rst = false

/-- The bytes read, in order: the payloads of the `SrcRead` events. -/
def bytesRead : List Event → List Byte
  | [] => []
  | .srcRead b :: es => b :: bytesRead es
  | .telemetry _ :: es => bytesRead es
  | .setChannel _ _ :: es => bytesRead es
  | .faultOut _ :: es => bytesRead es

/-- The number of telemetry records, one per dispatched frame (R143). -/
def recordCount : List Event → Nat
  | [] => 0
  | .srcRead _ :: es => recordCount es
  | .telemetry _ :: es => recordCount es + 1
  | .setChannel _ _ :: es => recordCount es
  | .faultOut _ :: es => recordCount es

/-- Whether an event leaves towards the sink or the actuator. -/
def Event.isFrameOutput : Event → Bool
  | .srcRead _ => false
  | .telemetry _ => true
  | .setChannel _ _ => true
  | .faultOut _ => false

/-- Whether an operation is a PUSH. -/
def isPush : Instr → Bool
  | .reset => false
  | .halt => false
  | .check => false
  | .dispatch => false
  | .idle => false
  | .pushB0 _ => true
  | .pushB1 _ => true
  | .pushB2 _ => true
  | .pushW _ => true
  | .pushF _ => true

/-- The byte cell a PUSH writes (R101 to R105); for the others, no cell of theirs. -/
def writtenCell : Instr → Option Nat
  | .reset => none
  | .halt => none
  | .check => none
  | .dispatch => none
  | .idle => none
  | .pushB0 _ => some 0
  | .pushB1 _ => some 1
  | .pushB2 _ => some 2
  | .pushW _ => some 3
  | .pushF _ => some 3

/-- Whether an operation completes a word and appends it (R104, R105). -/
def completesWord : Instr → Bool
  | .reset => false
  | .halt => false
  | .check => false
  | .dispatch => false
  | .idle => false
  | .pushB0 _ => false
  | .pushB1 _ => false
  | .pushB2 _ => false
  | .pushW _ => true
  | .pushF _ => true

/-- The number a string of ASCII digits spells, most significant digit first (R75). -/
def digitsValue (ds : List Byte) : Nat := ds.foldl (fun n d => 10 * n + (d.toNat - 0x30)) 0

/-- The source's own contract `push_byte(b)` on the block's buffers and cursors, undivided (R108), its assertion
`byte_cursor < 4` and APPEND's assertion left to the statement that uses it. -/
def pushByteContract (b : Byte) (s : State) : State :=
  let stored := { s with byteBuf := s.byteBuf.set s.byteCursor b, byteCursor := s.byteCursor + 1 }
  if stored.byteCursor = 4 then
    match stored.byteBuf with
    | b0 :: b1 :: b2 :: b3 :: _ =>
      { stored with
        byteCursor := 0
        frameBuf := s.frameBuf.set s.frameCursor (wordOf b0 b1 b2 b3)
        frameCursor := s.frameCursor + 1 }
    | _ => stored
  else stored

/-- The bytes of the open frame: the last `4 * frame_cursor + byte_cursor` bytes read. -/
def openBytes (s : State) : List Byte :=
  (bytesRead s.outputs).drop ((bytesRead s.outputs).length - (4 * s.frameCursor + s.byteCursor))

/-- The word of bytes `4 i .. 4 i + 3` of a list, where it has them (R53). -/
def wordAt (bs : List Byte) (i : Nat) : Option Word :=
  match bs[4 * i]?, bs[4 * i + 1]?, bs[4 * i + 2]?, bs[4 * i + 3]? with
  | some b0, some b1, some b2, some b3 => some (wordOf b0 b1 b2 b3)
  | _, _, _, _ => none

/-- What the buffers hold of the open frame is what was read: every word cell below the frame cursor is the decode of
its word group, every byte cell below the byte cursor is its byte (R107, R150). -/
def State.HoldsOpenBytes (s : State) : Prop :=
  (openBytes s).length = 4 * s.frameCursor + s.byteCursor ∧
    (∀ i, i < s.frameCursor → s.frameBuf[i]? = wordAt (openBytes s) i) ∧
    (∀ k, k < s.byteCursor → s.byteBuf[k]? = (openBytes s)[4 * s.frameCursor + k]?)

/-- Two states that differ at most in stale cells: byte cells at or beyond the byte cursor and frame cells at or beyond
the frame cursor (R29, R238). -/
structure State.SameButStale (s t : State) : Prop where
  params : t.params = s.params
  byteCells : ∀ k, k < s.byteCursor → t.byteBuf[k]? = s.byteBuf[k]?
  byteLength : t.byteBuf.length = s.byteBuf.length
  byteCursor : t.byteCursor = s.byteCursor
  frameCells : ∀ i, i < s.frameCursor → t.frameBuf[i]? = s.frameBuf[i]?
  frameLength : t.frameBuf.length = s.frameBuf.length
  frameCursor : t.frameCursor = s.frameCursor
  fault : t.fault = s.fault
  source : t.source = s.source
  draws : t.draws = s.draws
  srcRead : t.srcRead = s.srcRead
  outputs : t.outputs = s.outputs
  unspecDraws : t.unspecDraws = s.unspecDraws

/-- A run that may be taken: it starts at a frame boundary with legal parameters (R231, R232) and stays good. -/
abbrev State.SafeRun (k : Nat) (s : State) : Prop :=
  ∃ t : State, Sys2Proof.core.run k s = .next t ∧ t.Good ∧ t.Healthy

end Sys2Proof.Machine
end

