-- ==== Sys2Proof/Certificates/Slice0/Obligations.lean ====
section
/-! DEFINITION. The statements for the provers. Each says which rule or section of spec/ it formalises; where one rests
on a choice of the spec's own (a decision D<n>) or of the model's (a log entry), it says so. -/

open Sys2Proof Sys2Proof.Machine

/-! ### The operation map -/

/-- Decoding the encoded form of any operation gives it back, with every operand (30_encoding.md section 3, the spec's
own encoding, decision D3). -/
def Obligations.DecodeOfEncodeIsIdentity : Prop :=
  ∀ i : Instr, i.wf = true → decode (encode i) = .ok i

/-- The rows of the operation map are pairwise disjoint and cover all `2^16` selectors, so the decoder is total
(30_encoding.md section 3, derived there; decision D3). -/
def Obligations.ExactlyOneRowSelectsEachSelector : Prop :=
  ∀ S : Sel, ∃ k : Fin rows.length,
    (rows.get k).selects S = true ∧ (∀ j : Fin rows.length, (rows.get j).selects S = true → j = k) ∧
      decode S = .ok ((rows.get k).build (S.extractLsb' 0 8))

/-- The sixteen bits of the step selector are the inputs and state conditions the spec lists (30_encoding.md section 3,
decision D3). `src_data` while the source is empty is the draw's byte (log 5). -/
def Obligations.SelectorPacksInputsAndState : Prop :=
  ∀ (rst : Bool) (f : Byte) (s : State),
    (selector rst f s).getLsbD 15 = rst ∧
    (selector rst f s).getLsbD 14 = decide (s.fault ≠ .noFault) ∧
    (selector rst f s).getLsbD 13 = decide (¬(s.byteCursor ≤ 3 ∧ s.frameCursor ≤ s.params.channels)) ∧
    (selector rst f s).getLsbD 12 = decide (s.frameCursor = s.params.channels) ∧
    (selector rst f s).getLsbD 11 = decide (s.source ≠ []) ∧
    (selector rst f s).extractLsb' 9 2 = BitVec.ofNat 2 s.byteCursor ∧
    (selector rst f s).getLsbD 8 = decide (s.frameCursor + 1 = s.params.channels) ∧
    (selector rst f s).extractLsb' 0 8 = s.source.headD f

/-- Selectors written out in the spec decode to the operations the spec gives them (95_test_vectors.md section 2.5). -/
def Obligations.WrittenOutSelectorsDecode : Prop :=
  decode 0xFFFF#16 = .ok .reset ∧ decode 0x6000#16 = .ok .halt ∧ decode 0x2000#16 = .ok .check ∧
  decode 0x1800#16 = .ok .dispatch ∧ decode 0x0700#16 = .ok .idle ∧ decode 0x08DC#16 = .ok (.pushB0 0xDC#8) ∧
  decode 0x0A05#16 = .ok (.pushB1 0x05#8) ∧ decode 0x0D00#16 = .ok (.pushB2 0x00#8) ∧
  decode 0x0E00#16 = .ok (.pushW 0x00#8) ∧ decode 0x0FFF#16 = .ok (.pushF 0xFF#8)

/-! ### The step -/

/-- A step takes the environment's draw, lets its bytes join the source, forms the selector and runs the operation the
selector decodes to (43_poll_loop.md, step function, decision D1; the draws are the model's form of the inputs, log 4). -/
def Obligations.StepRunsTheSelectedOperation : Prop :=
  ∀ (s q : State) (d : Draw) (i : Instr),
    d = s.draws.headD .quiet → q = { s with source := s.source ++ d.arrivals, draws := s.draws.tail } →
    decode (selector d.rst d.floatData q) = .ok i → step s = exec i q

/-- The operation of a step, by priority: RESET, HALT, CHECK, DISPATCH, then IDLE or a PUSH by `src_avail`, the byte
cursor and `last` (60_exceptions.md section 3 and 30_encoding.md section 3, decisions D3, D11). -/
def Obligations.OperationIsChosenByPriority : Prop :=
  ∀ s : State,
    ((nextDraw s).rst = true → fetch s = .ok .reset) ∧
    ((nextDraw s).rst = false →
      (s.fault ≠ .noFault → fetch s = .ok .halt) ∧
      (s.fault = .noFault →
        (¬(s.byteCursor ≤ 3 ∧ s.frameCursor ≤ s.params.channels) → fetch s = .ok .check) ∧
        (s.byteCursor ≤ 3 → s.frameCursor = s.params.channels → fetch s = .ok .dispatch) ∧
        (s.byteCursor ≤ 3 → s.frameCursor < s.params.channels →
          ((sample s).source = [] → fetch s = .ok .idle) ∧
          (∀ b rest, (sample s).source = b :: rest →
            (s.byteCursor = 0 → fetch s = .ok (.pushB0 b)) ∧
            (s.byteCursor = 1 → fetch s = .ok (.pushB1 b)) ∧
            (s.byteCursor = 2 → fetch s = .ok (.pushB2 b)) ∧
            (s.byteCursor = 3 → s.frameCursor + 1 < s.params.channels → fetch s = .ok (.pushW b)) ∧
            (s.byteCursor = 3 → s.frameCursor + 1 = s.params.channels → fetch s = .ok (.pushF b))))))

/-- R100: when a PUSH is selected, what it reads and emits, and that the step after one that completes the frame is
DISPATCH or RESET. -/
def Obligations.PushSelectedOnlyWhenHealthyAndOffered : Prop :=
  ∀ (s : State) (i : Instr), fetch s = .ok i → isPush i = true →
    (nextDraw s).rst = false ∧ s.fault = .noFault ∧ s.byteCursor ≤ 3 ∧ s.frameCursor < s.params.channels ∧
    ∃ b rest, (sample s).source = b :: rest ∧ i.operand = some b ∧
      (s.Shaped → ∃ t, step s = .next t ∧ t.outputs = s.outputs ++ [.srcRead b] ∧ t.source = rest ∧
        t.srcRead = true ∧ (t.frameCursor = t.params.channels → fetch t = .ok .dispatch ∨ fetch t = .ok .reset))

/-! ### The Byte Accumulator -/

/-- R101, R102, R103: which selectors are the first three PUSH operations, and that each reads the head byte, stores it
in its cell, moves the cursor and changes nothing else. -/
def Obligations.PushFirstThreeBytesStoreAndAdvance : Prop :=
  (∀ (S : Sel) (b : Byte),
    (decode S = .ok (.pushB0 b) ↔ S &&& 0xFE00#16 = 0x0800#16 ∧ S.extractLsb' 0 8 = b) ∧
    (decode S = .ok (.pushB1 b) ↔ S &&& 0xFE00#16 = 0x0A00#16 ∧ S.extractLsb' 0 8 = b) ∧
    (decode S = .ok (.pushB2 b) ↔ S &&& 0xFE00#16 = 0x0C00#16 ∧ S.extractLsb' 0 8 = b)) ∧
  (∀ (s : State) (b : Byte) (rest : List Byte), s.Shaped → s.source = b :: rest →
    exec (.pushB0 b) s = .next { s with
      byteBuf := s.byteBuf.set 0 b, byteCursor := 1, source := rest, srcRead := true,
      outputs := s.outputs ++ [.srcRead b] } ∧
    exec (.pushB1 b) s = .next { s with
      byteBuf := s.byteBuf.set 1 b, byteCursor := 2, source := rest, srcRead := true,
      outputs := s.outputs ++ [.srcRead b] } ∧
    exec (.pushB2 b) s = .next { s with
      byteBuf := s.byteBuf.set 2 b, byteCursor := 3, source := rest, srcRead := true,
      outputs := s.outputs ++ [.srcRead b] })

/-- R104: which selectors are PUSH.W, and its result with `k = frame_cursor < N - 1`: the fourth byte stored, the decoded
word in cell `k`, the frame cursor `k + 1`, the byte cursor 0, one `SrcRead`, nothing else; the next phase is
ACCUMULATING(k + 1). -/
def Obligations.PushWordDecodesAndAppends : Prop :=
  (∀ (S : Sel) (b : Byte),
    decode S = .ok (.pushW b) ↔ S &&& 0xFF00#16 = 0x0E00#16 ∧ S.extractLsb' 0 8 = b) ∧
  (∀ (s : State) (b b0 b1 b2 b3 : Byte) (rest spare : List Byte), s.Shaped → s.source = b :: rest →
    s.byteBuf = b0 :: b1 :: b2 :: b3 :: spare → s.frameCursor + 1 < s.params.channels →
    ∃ t, exec (.pushW b) s = .next t ∧
      t = { s with
        byteBuf := b0 :: b1 :: b2 :: b :: spare, byteCursor := 0,
        frameBuf := s.frameBuf.set s.frameCursor (wordOf b0 b1 b2 b), frameCursor := s.frameCursor + 1,
        source := rest, srcRead := true, outputs := s.outputs ++ [.srcRead b] } ∧
      phase t = some (.accumulating (s.frameCursor + 1)))

/-- R105: which selectors are PUSH.F, and its result with `frame_cursor = N - 1`: the fourth byte stored, the decoded word
in cell `N - 1`, the frame cursor `N`, the byte cursor 0, one `SrcRead`, nothing else; the phase is then DISPATCHING, so
that the next operation is DISPATCH or RESET; with `N = 1` no word is ever appended by PUSH.W. -/
def Obligations.PushFinalWordCompletesTheFrame : Prop :=
  (∀ (S : Sel) (b : Byte),
    decode S = .ok (.pushF b) ↔ S &&& 0xFF00#16 = 0x0F00#16 ∧ S.extractLsb' 0 8 = b) ∧
  (∀ (s : State) (b b0 b1 b2 b3 : Byte) (rest spare : List Byte), s.Shaped → s.source = b :: rest →
    s.byteBuf = b0 :: b1 :: b2 :: b3 :: spare → s.frameCursor + 1 = s.params.channels →
    ∃ t, exec (.pushF b) s = .next t ∧
      t = { s with
        byteBuf := b0 :: b1 :: b2 :: b :: spare, byteCursor := 0,
        frameBuf := s.frameBuf.set (s.params.channels - 1) (wordOf b0 b1 b2 b), frameCursor := s.params.channels,
        source := rest, srcRead := true, outputs := s.outputs ++ [.srcRead b] } ∧
      phase t = some .dispatching ∧
      (s.fault = .noFault → fetch t = .ok .dispatch ∨ fetch t = .ok .reset)) ∧
  (∀ (s : State) (b : Byte), s.params.channels = 1 → fetch s ≠ .ok (.pushW b))

/-- APPEND's assertion: run where the frame has no room, PUSH.W and PUSH.F raise FRAME_OVERRUN and write nothing but
the fault register (42_frame_assembler.md section 1 with 60_exceptions.md section 2; that the read is dropped with the
other writes is the model's inference, log 9; no step reaches it). -/
def Obligations.AppendWithoutRoomRaisesFrameOverrun : Prop :=
  ∀ (s : State) (b : Byte) (rest : List Byte), s.source = b :: rest → s.params.channels ≤ s.frameCursor →
    exec (.pushW b) s = .next { s with
      fault := .frameOverrun, srcRead := false, outputs := s.outputs ++ [.faultOut 2#2] } ∧
    exec (.pushF b) s = .next { s with
      fault := .frameOverrun, srcRead := false, outputs := s.outputs ++ [.faultOut 2#2] }

/-- A PUSH is refused exactly where the source does not offer its byte (60_exceptions.md section 6, decision D17, and
93_implementation_defined.md U3: a forced read is refused; log 7). -/
def Obligations.PushRefusedExactlyWithoutTheOfferedByte : Prop :=
  ∀ (s : State) (i : Instr) (b : Byte), i.operand = some b →
    (exec i s = .refused .readNotOffered ↔ s.source.head? ≠ some b)

/-- The frame of the PUSH operations: what one leaves unchanged wherever it answers a next state (40_accumulator.md,
the "Written" lines; the fault register moves only in the unreachable case of log 9). -/
def Obligations.PushFrame : Prop :=
  ∀ (i : Instr) (s t : State), isPush i = true → exec i s = .next t →
    t.params = s.params ∧ t.draws = s.draws ∧ t.unspecDraws = s.unspecDraws ∧
    (∀ k, writtenCell i ≠ some k → t.byteBuf[k]? = s.byteBuf[k]?) ∧
    (∀ j, ¬(completesWord i = true ∧ j = s.frameCursor) → t.frameBuf[j]? = s.frameBuf[j]?) ∧
    (completesWord i = false → t.frameCursor = s.frameCursor ∧ t.frameBuf = s.frameBuf) ∧
    (t.fault = s.fault ∨ (completesWord i = true ∧ s.params.channels ≤ s.frameCursor ∧ t.byteBuf = s.byteBuf ∧
      t.byteCursor = s.byteCursor ∧ t.frameBuf = s.frameBuf ∧ t.frameCursor = s.frameCursor ∧ t.source = s.source))

/-- In every good state the PUSH that a step runs is the source's own undivided `push_byte(b)` (40_accumulator.md,
derived there). -/
def Obligations.PushFamilyIsThePushByteContract : Prop :=
  ∀ (s : State) (b : Byte) (rest : List Byte), s.Good → s.Healthy → (nextDraw s).rst = false →
    s.frameCursor < s.params.channels → (sample s).source = b :: rest →
    step s = .next { pushByteContract b (sample s) with
      source := rest, srcRead := true, outputs := s.outputs ++ [.srcRead b] }

/-! ### The Integer Decoder -/

/-- R120, R121, R122: the word is the exact sum of the unsigned bytes at their weights, and the setpoint is that sum
read as a 32-bit two's-complement number. -/
def Obligations.DecodeIsTheSignedWeightedSum : Prop :=
  ∀ b0 b1 b2 b3 : Byte,
    (wordOf b0 b1 b2 b3).toNat = b0.toNat + b1.toNat * 2 ^ 8 + b2.toNat * 2 ^ 16 + b3.toNat * 2 ^ 24 ∧
    decodeInt b0 b1 b2 b3 =
      (if b0.toNat + b1.toNat * 2 ^ 8 + b2.toNat * 2 ^ 16 + b3.toNat * 2 ^ 24 < 2 ^ 31 then
        ((b0.toNat + b1.toNat * 2 ^ 8 + b2.toNat * 2 ^ 16 + b3.toNat * 2 ^ 24 : Nat) : Int)
      else ((b0.toNat + b1.toNat * 2 ^ 8 + b2.toNat * 2 ^ 16 + b3.toNat * 2 ^ 24 : Nat) : Int) - 2 ^ 32)

/-- R52: the byte at group offset `k` supplies bits `[8k+7:8k]` of the word; the first to arrive is the least
significant. -/
def Obligations.ArrivalOrderIsLittleEndian : Prop :=
  ∀ b0 b1 b2 b3 : Byte,
    (wordOf b0 b1 b2 b3).extractLsb' 0 8 = b0 ∧ (wordOf b0 b1 b2 b3).extractLsb' 8 8 = b1 ∧
    (wordOf b0 b1 b2 b3).extractLsb' 16 8 = b2 ∧ (wordOf b0 b1 b2 b3).extractLsb' 24 8 = b3

/-- Decoding is a bijection from byte quadruples onto words, and its inverse is the sender's encoding (41_decoder.md,
derived there). -/
def Obligations.DecodeIsInvertedByTheSendersBytes : Prop :=
  (∀ w : Word, wordOf (byteOf w 0) (byteOf w 1) (byteOf w 2) (byteOf w 3) = w) ∧
  (∀ a0 a1 a2 a3 b0 b1 b2 b3 : Byte, wordOf a0 a1 a2 a3 = wordOf b0 b1 b2 b3 →
    a0 = b0 ∧ a1 = b1 ∧ a2 = b2 ∧ a3 = b3) ∧
  (∀ v : Int, isInt32 v = true → ∃ b0 b1 b2 b3, bytesOf (u32 v) = [b0, b1, b2, b3] ∧ decodeInt b0 b1 b2 b3 = v ∧
    expand (.word v) = [.byte b0, .byte b1, .byte b2, .byte b3])

/-! ### The Frame Assembler -/

/-- R142, R144: which selectors are DISPATCH, and its result: the record, then one call per channel in index order
with the word held in its cell, then the frame cursor 0; buffers, byte cursor, fault and source unchanged. -/
def Obligations.DispatchEmitsRecordThenCallsInOrder : Prop :=
  (∀ S : Sel, decode S = .ok .dispatch ↔ S &&& 0xF000#16 = 0x1000#16) ∧
  (∀ s : State, s.Shaped → ∃ t, exec .dispatch s = .next t ∧
    t = { s with
      frameCursor := 0, srcRead := false,
      outputs := s.outputs ++ .telemetry (render s.frameBuf) ::
        s.frameBuf.zipIdx.map (fun p => .setChannel p.2 p.1) } ∧
    phase t = some (.accumulating 0))

/-- The telemetry record: the rendered values in order, `;` after each, one line feed at the end; 13 to 73 bytes for
`N = 6` (30_encoding.md section 2; the character details are the spec's decision D10, log 13). -/
def Obligations.RecordIsSemicolonTerminatedDecimals : Prop :=
  ∀ F : List Word,
    render F = (F.flatMap fun v => dec v ++ [0x3B#8]) ++ [0x0A#8] ∧
    2 * F.length + 1 ≤ (render F).length ∧ (render F).length ≤ 12 * F.length + 1

/-- `dec(v)`: an optional minus sign before ASCII digits that spell the magnitude of `v`, without leading zero, 1 to 11
bytes in all (30_encoding.md section 2; decision D10, log 13). -/
def Obligations.DecimalTextSpellsTheSetpoint : Prop :=
  ∀ v : Word, ∃ ds : List Byte,
    dec v = (if v.toInt < 0 then 0x2D#8 :: ds else ds) ∧ digitsValue ds = v.toInt.natAbs ∧
    (∀ d ∈ ds, 0x30 ≤ d.toNat ∧ d.toNat ≤ 0x39) ∧ (ds.head? = some 0x30#8 → ds = [0x30#8]) ∧
    1 ≤ ds.length ∧ ds.length ≤ 10

/-- R147: a partial frame is never dispatched: only a DISPATCH step, taken with the frame cursor at `N`, sends anything
to the sink or the actuator, and it sends one record; a RESET step drops the frame without output. -/
def Obligations.PartialFramesAreNeverDispatched : Prop :=
  ∀ (s t : State), step s = .next t → ∃ evs, t.outputs = s.outputs ++ evs ∧
    ((∃ e ∈ evs, e.isFrameOutput = true) →
      fetch s = .ok .dispatch ∧ s.frameCursor = s.params.channels ∧ recordCount evs = 1) ∧
    (fetch s = .ok .reset → evs = [] ∧ t.frameCursor = 0)

/-- The channel index width is the least of at least one bit that holds every index, so each index passes the
`act_index` port unchanged (00_scope.md section 3, decision D21). -/
def Obligations.ChannelIndexFitsItsPort : Prop :=
  ∀ p : Params, 1 ≤ p.channels →
    (∀ i, i < p.channels → (actIndexPort p i).toNat = i) ∧ 1 ≤ chanIdxWidth p ∧
    (∀ w, 1 ≤ w → p.channels ≤ 2 ^ w → chanIdxWidth p ≤ w)

/-- The transitions of the state machine, with the operation that takes each (42_frame_assembler.md section 3; the rows
beside the source's own are decision D1). -/
def Obligations.PhaseTransitionsFollowTheTable : Prop :=
  ∀ (s t : State) (i : Instr), s.Good → s.Healthy → fetch s = .ok i → step s = .next t →
    match i with
    | .reset => phase t = some (.accumulating 0)
    | .halt => False
    | .check => False
    | .dispatch => phase s = some .dispatching ∧ phase t = some (.accumulating 0)
    | .idle => ∃ k, phase s = some (.accumulating k) ∧ phase t = some (.accumulating k)
    | .pushB0 _ => ∃ k, phase s = some (.accumulating k) ∧ phase t = some (.accumulating k)
    | .pushB1 _ => ∃ k, phase s = some (.accumulating k) ∧ phase t = some (.accumulating k)
    | .pushB2 _ => ∃ k, phase s = some (.accumulating k) ∧ phase t = some (.accumulating k)
    | .pushW _ => ∃ k, phase s = some (.accumulating k) ∧ phase t = some (.accumulating (k + 1)) ∧
        k + 1 < s.params.channels
    | .pushF _ => phase s = some (.accumulating (s.params.channels - 1)) ∧ phase t = some .dispatching

/-- Fused view: a PUSH.F step and the DISPATCH step that follows it, where no reset comes between, have together the
events of the fused form (42_frame_assembler.md section 3, derived there; the reset caveat is decision D12, log 14). -/
def Obligations.FinalPushThenDispatchIsTheFusedForm : Prop :=
  ∀ (s : State) (b : Byte), s.Good → fetch s = .ok (.pushF b) → (s.draws.tail.headD .quiet).rst = false →
    ∃ t u, step s = .next t ∧ step t = .next u ∧ u.frameCursor = 0 ∧ u.byteCursor = 0 ∧
      u.outputs = s.outputs ++ .srcRead b :: .telemetry (render t.frameBuf) ::
        t.frameBuf.zipIdx.map (fun p => .setChannel p.2 p.1)

/-! ### The poll loop -/

/-- R171: which selectors are IDLE, and that it writes nothing, emits nothing and reads nothing; IDLE_DELAY is a label. -/
def Obligations.IdleChangesNothing : Prop :=
  (∀ S : Sel, decode S = .ok .idle ↔ S &&& 0xF800#16 = 0x0000#16) ∧
  (∀ s : State, exec .idle s = .next { s with srcRead := false }) ∧ waitOf .idle = Config.idleDelay

/-- Which selectors are HALT, and that it writes nothing, emits nothing and reads nothing (43_poll_loop.md, decision
D6). -/
def Obligations.HaltChangesNothing : Prop :=
  (∀ S : Sel, decode S = .ok .halt ↔ S &&& 0xC000#16 = 0x4000#16) ∧
  (∀ s : State, exec .halt s = .next { s with srcRead := false })

/-- Which selectors are CHECK, and that it records the cause, BYTE_OVERRUN before FRAME_OVERRUN, emits `FaultOut` alone
and writes nothing else (43_poll_loop.md and 60_exceptions.md section 2, decisions D5, D11). That it records FRAME_OVERRUN
also where the byte cursor is at most 3 and the frame cursor at most `N`, a state that does not select it, is the model's
inference (log 10, DEDUCED). -/
def Obligations.CheckRecordsTheCauseAndNothingElse : Prop :=
  (∀ S : Sel, decode S = .ok .check ↔ S &&& 0xE000#16 = 0x2000#16) ∧
  (∀ s : State,
    (4 ≤ s.byteCursor → exec .check s = .next { s with
      fault := .byteOverrun, srcRead := false, outputs := s.outputs ++ [.faultOut 1#2] }) ∧
    (s.byteCursor ≤ 3 → exec .check s = .next { s with
      fault := .frameOverrun, srcRead := false, outputs := s.outputs ++ [.faultOut 2#2] }))

/-- The frame of the operations that do not read: source, draws and parameters always; the buffers, the byte cursor,
the frame cursor and the fault register but where the operation writes them (the "Written" lines of
42_frame_assembler.md section 2, 43_poll_loop.md and 70_reset_and_hazards.md section 1). -/
def Obligations.NonReadingOperationsFrame : Prop :=
  ∀ (i : Instr) (s t : State), isPush i = false → exec i s = .next t →
    t.params = s.params ∧ t.source = s.source ∧ t.draws = s.draws ∧ t.srcRead = false ∧
    (i ≠ .reset → t.byteBuf = s.byteBuf ∧ t.byteCursor = s.byteCursor ∧ t.frameBuf = s.frameBuf ∧
      t.unspecDraws = s.unspecDraws) ∧
    (i ≠ .reset → i ≠ .dispatch → t.frameCursor = s.frameCursor) ∧
    (i ≠ .reset → i ≠ .check → t.fault = s.fault) ∧
    (i ≠ .dispatch → i ≠ .check → t.outputs = s.outputs)

/-- R57: reading the source is a PUSH's alone; it takes the head byte, once, and removes it; a step without it leaves
the source as it was. -/
def Obligations.ReadingPopsTheHeadOnceAndOnlyInPush : Prop :=
  ∀ (s t : State) (i : Instr), fetch s = .ok i → step s = .next t →
    (isPush i = true → ∃ b, i.operand = some b ∧ srcAvail (sample s) = true ∧ (sample s).source = b :: t.source ∧
      t.outputs = s.outputs ++ [.srcRead b] ∧ t.srcRead = true) ∧
    (isPush i = false → t.source = (sample s).source ∧ t.srcRead = false ∧
      ∃ evs, t.outputs = s.outputs ++ evs ∧ bytesRead evs = [])

/-- R58: polling has no side effect: the operations that do not read are selected and act the same whatever the source
holds and whatever arrives. -/
def Obligations.PollingHasNoSideEffect : Prop :=
  ∀ (s : State) (i : Instr) (src arr : List Byte) (f : Byte), fetch s = .ok i →
    i = .dispatch ∨ i = .reset ∨ i = .halt ∨ i = .check →
    fetch { s with source := src, draws := { nextDraw s with arrivals := arr, floatData := f } :: s.draws.tail }
      = .ok i ∧
    ∀ t, step s = .next t →
      step { s with source := src, draws := { nextDraw s with arrivals := arr, floatData := f } :: s.draws.tail }
        = .next { t with source := src ++ arr }

/-- R26: the completion test reads `frame_cursor` alone; no cell of either buffer takes part in choosing an operation or
in the phase. -/
def Obligations.NoBufferCellDecidesATransition : Prop :=
  ∀ (s : State) (bs : List Byte) (ws : List Word),
    fetch { s with byteBuf := bs, frameBuf := ws } = fetch s ∧
    phase { s with byteBuf := bs, frameBuf := ws } = phase s ∧
    (phase s = some .dispatching ↔ s.frameCursor = s.params.channels)

/-- The bytes of the sender are neither lost nor reordered: what was read, followed by what waits, is what waited at
first, followed by what arrived (10_state.md section 3, decision D17; the FIFO is the model's form of the source,
log 4). -/
def Obligations.BytesAreNeitherLostNorReordered : Prop :=
  ∀ (k : Nat) (s t : State), Sys2Proof.core.run k s = .next t → ∃ evs, t.outputs = s.outputs ++ evs ∧
    bytesRead evs ++ t.source = s.source ++ (s.draws.take k).flatMap (fun d => d.arrivals)

/-! ### Reset -/

/-- Which selectors are RESET, and its result: cursors 0, fault NONE, both buffers at unspecified contents, nothing
emitted, nothing read (70_reset_and_hazards.md section 1, decisions D4, D7, D20; the free values are the model's,
log 3). -/
def Obligations.ResetReinitialisesTheBlock : Prop :=
  (∀ S : Sel, decode S = .ok .reset ↔ S &&& 0x8000#16 = 0x8000#16) ∧
  (∀ s : State, ∃ bs ws t, bs.length = s.params.byteBufCap ∧ ws.length = s.params.channels ∧
    exec .reset s = .next t ∧
    t = { s with
      byteBuf := bs, byteCursor := 0, frameBuf := ws, frameCursor := 0, fault := .noFault, srcRead := false,
      unspecDraws := s.unspecDraws + 1 } ∧
    (1 ≤ s.params.channels → phase t = some (.accumulating 0)))

/-- With `rst` asserted a step leaves every state for the start of a frame, dropping what was pending without output and
reading nothing (70_reset_and_hazards.md section 1, 60_exceptions.md section 2, decisions D7, D12). -/
def Obligations.ResetEscapesEveryState : Prop :=
  ∀ s : State, s.params.wf = true → (nextDraw s).rst = true → ∃ t, step s = .next t ∧ t.AtFrameStart ∧
    t.params = s.params ∧ t.outputs = s.outputs ∧ t.source = s.source ++ (nextDraw s).arrivals

/-- The state after reset, for every legal pair of parameters: cursors 0, fault NONE, phase ACCUMULATING(0), good, at a
frame start (10_state.md section 4, decisions D4, D7; the buffer cells of this one state are the model's choice, log 2,
and are not stated). That State.reset is the one with `N = 6` and `BYTE_BUF_CAP = 4` is 00_scope.md section 3 (the
capacity: decision D8) with the model's choice to carry both in State (log 1, DESIGN CHOICE). -/
def Obligations.ResetStateHasTheStatedValues : Prop :=
  ∀ p : Params, p.wf = true →
    (State.resetWith p).byteCursor = 0 ∧ (State.resetWith p).frameCursor = 0 ∧
    (State.resetWith p).fault = .noFault ∧ phase (State.resetWith p) = some (.accumulating 0) ∧
    (State.resetWith p).Good ∧ (State.resetWith p).AtFrameStart ∧
    State.reset = State.resetWith { channels := 6, byteBufCap := 4 }

/-- After a RESET or a DISPATCH step the block is between frames (43_poll_loop.md, decision D26). -/
def Obligations.ResetAndDispatchEndBetweenFrames : Prop :=
  ∀ (s t : State), s.Good → fetch s = .ok .reset ∨ fetch s = .ok .dispatch → step s = .next t →
    betweenFrames t = true

/-! ### Faults -/

/-- A broken cursor is caught by CHECK at the first step that is not RESET: the cause is recorded, `FaultOut` with its
code is the only event, nothing is stored and no byte is read; no PUSH is ever selected with the byte cursor at 4 or
above; from reset, whatever the environment does, no such state is reached (40_accumulator.md, overrun guard;
60_exceptions.md section 1; the register, the codes and the event are decision D5; the draws are log 4). -/
def Obligations.BrokenCursorsAreCaughtByCheck : Prop :=
  (∀ s : State, s.fault = .noFault → (nextDraw s).rst = false →
    (4 ≤ s.byteCursor → fetch s = .ok .check ∧ step s = .next { sample s with
      fault := .byteOverrun, srcRead := false, outputs := s.outputs ++ [.faultOut 1#2] }) ∧
    (s.byteCursor ≤ 3 → s.params.channels < s.frameCursor → fetch s = .ok .check ∧ step s = .next { sample s with
      fault := .frameOverrun, srcRead := false, outputs := s.outputs ++ [.faultOut 2#2] })) ∧
  (∀ (s : State) (i : Instr), 4 ≤ s.byteCursor → fetch s = .ok i → isPush i = false) ∧
  (∀ (k : Nat) (p : Params) (bs : List Byte) (ds : List Draw) (t : State), p.wf = true →
    Sys2Proof.core.run k { State.resetWith p with source := bs, draws := ds } = .next t →
    t.byteCursor ≤ 3 ∧ t.frameCursor ≤ t.params.channels)

/-- A faulted block stays faulted, silent and unreading for as long as no reset comes (60_exceptions.md section 2,
decision D6). -/
def Obligations.FaultIsStickyAndSilent : Prop :=
  ∀ (k : Nat) (s : State), s.fault ≠ .noFault → s.NoReset →
    ∃ r, Sys2Proof.core.run k s = .next { s with
      source := s.source ++ (s.draws.take k).flatMap (fun d => d.arrivals), draws := s.draws.drop k, srcRead := r }

/-- Only CHECK and RESET write the fault register, and only RESET writes one that records a fault (10_state.md section 1
and 60_exceptions.md section 2, decisions D5, D6). -/
def Obligations.OnlyCheckAndResetWriteTheFaultRegister : Prop :=
  ∀ (s t : State), step s = .next t → t.fault ≠ s.fault →
    (fetch s = .ok .check ∧ s.fault = .noFault ∧ (t.fault = .byteOverrun ∨ t.fault = .frameOverrun)) ∨
    (fetch s = .ok .reset ∧ t.fault = .noFault)

/-- The fault ports show the register; code 3 is never produced (30_encoding.md section 2 and 60_exceptions.md section 1,
decisions D5, D25). -/
def Obligations.FaultPortsShowTheRegister : Prop :=
  ∀ s : State, faultCodePort s ≠ 3#2 ∧ (faultPort s = true ↔ s.fault ≠ .noFault) ∧
    (faultCodePort s = 0#2 ↔ s.fault = .noFault) ∧ (faultCodePort s = 1#2 ↔ s.fault = .byteOverrun) ∧
    (faultCodePort s = 2#2 ↔ s.fault = .frameOverrun)

/-! ### The whole machine -/

/-- Every step of a shaped state answers a next state, shaped and with the same parameters: no operation stops the model
(30_encoding.md section 3 and 00_scope.md section 3, decisions D3, D13). -/
def Obligations.EveryStepAnswers : Prop :=
  ∀ s : State, s.Shaped → ∃ t, step s = .next t ∧ t.Shaped ∧ t.params = s.params

/-- Every step keeps the invariant `INV` together with `byte_cursor = 0` in phase DISPATCHING (10_state.md section 2 and
42_frame_assembler.md section 2, derived there). -/
def Obligations.StepKeepsGood : Prop :=
  ∀ s t : State, s.Good → step s = .next t → t.Good

/-- A healthy good state never faults: its step is neither HALT nor CHECK and asserts no fault (10_state.md section 2,
derived there; 42_frame_assembler.md section 3). -/
def Obligations.GoodHealthyStatesNeverFault : Prop :=
  ∀ s t : State, s.Good → s.Healthy → step s = .next t → t.Healthy ∧ fetch s ≠ .ok .halt ∧ fetch s ≠ .ok .check ∧
    ∃ evs, t.outputs = s.outputs ++ evs ∧ ∀ c, .faultOut c ∉ evs

/-- R29: stale cells are never read: two states that differ at most in stale cells run alike, step for step, emit the
same events and end differing at most in stale cells; and cells a step does not write keep what they held. -/
def Obligations.StaleCellsAreNeverRead : Prop :=
  (∀ (k : Nat) (s s' t : State), State.SameButStale s s' → Sys2Proof.core.run k s = .next t →
    ∃ t' : State, Sys2Proof.core.run k s' = .next t' ∧ State.SameButStale t t') ∧
  (∀ s t : State, step s = .next t → fetch s ≠ .ok .reset →
    (∀ k, k ≠ s.byteCursor → t.byteBuf[k]? = s.byteBuf[k]?) ∧
    (∀ i, i ≠ s.frameCursor → t.frameBuf[i]? = s.frameBuf[i]?))

/-- Every step, reset or not, keeps this: the buffers hold of the open frame exactly what was last read, word cells the
decodes of their groups, byte cells their bytes in arrival order (40_accumulator.md and 42_frame_assembler.md section 3,
derived there). -/
def Obligations.BuffersHoldTheBytesOfTheOpenFrame : Prop :=
  ∀ s t : State, s.Good → s.HoldsOpenBytes → step s = .next t → t.HoldsOpenBytes

/-- No cross-contamination: what a DISPATCH sends is, channel by channel, the decode of the word groups of the last `4N`
bytes read (42_frame_assembler.md section 3, derived there). -/
def Obligations.DispatchedFrameIsTheLastBytesRead : Prop :=
  ∀ s : State, s.Good → s.HoldsOpenBytes → fetch s = .ok .dispatch →
    ∃ t F, step s = .next t ∧ F.length = s.params.channels ∧
      t.outputs = s.outputs ++ .telemetry (render F) :: F.zipIdx.map (fun p => .setChannel p.2 p.1) ∧
      ∀ i, i < s.params.channels → F[i]? = wordAt
        ((bytesRead s.outputs).drop ((bytesRead s.outputs).length - 4 * s.params.channels)) i

/-- Positions: in a run without reset from a frame start, the bytes read decide both cursors and the number of frames
sent: position `p` is byte `p mod 4` of word `(p div 4) mod N`, and every `4N` bytes make one frame (20_memory.md
section 3 and 43_poll_loop.md, derived there). -/
def Obligations.StreamPositionDecidesCursorsAndFrames : Prop :=
  ∀ (k : Nat) (s t : State), s.AtFrameStart → s.NoReset → Sys2Proof.core.run k s = .next t →
    ∃ evs, t.outputs = s.outputs ++ evs ∧ t.Good ∧ t.Healthy ∧
      (bytesRead evs).length =
        4 * s.params.channels * recordCount evs + 4 * t.frameCursor + t.byteCursor ∧
      t.byteCursor = (bytesRead evs).length % 4 ∧
      (t.frameCursor < s.params.channels →
        t.frameCursor = (bytesRead evs).length / 4 % s.params.channels ∧
        recordCount evs = (bytesRead evs).length / (4 * s.params.channels)) ∧
      (t.frameCursor = s.params.channels →
        (bytesRead evs).length % (4 * s.params.channels) = 0 ∧ 0 < (bytesRead evs).length)

/-- One whole frame: `N` words offered in the sender's bytes at a frame start, with no reset, are read in `4N` steps and
sent in the next, as one record and `N` calls in channel order, and nothing else happens (20_memory.md sections 2 and 4,
70_reset_and_hazards.md section 4, 95_test_vectors.md section 1; the draws are the model's form of the inputs, log 4). -/
def Obligations.FrameOfBytesIsDispatched : Prop :=
  ∀ (s : State) (vs : List Word) (rest : List Byte), s.AtFrameStart → s.NoReset → vs.length = s.params.channels →
    s.source = vs.flatMap bytesOf ++ rest →
    ∃ t : State, Sys2Proof.core.run (4 * s.params.channels + 1) s = .next t ∧ t.AtFrameStart ∧ t.frameBuf = vs ∧
      t.outputs = s.outputs ++ (vs.flatMap bytesOf).map .srcRead ++
        .telemetry (render vs) :: vs.zipIdx.map (fun p => .setChannel p.2 p.1) ∧
      t.source = rest ++ (s.draws.take (4 * s.params.channels + 1)).flatMap (fun d => d.arrivals)

/-! ### The stimulus notation -/

/-- The runner: a line waits while DISPATCH or CHECK is selected, HALT leaves a line's byte unread, RESET always takes
its line (30_encoding.md section 4, decision D14; log 17). -/
def Obligations.RunnerLinesWaitForDispatchAndCheck : Prop :=
  ∀ (r : Runner) (b : Byte), r.state.Shaped →
    (r.state.Good → r.state.Healthy → r.state.frameCursor = r.state.params.channels →
      ∃ r', runLine (.byte b) r = some r' ∧ r'.ops = r.ops ++ [.dispatch, .pushB0 b] ∧ r'.unread = r.unread) ∧
    (r.state.Healthy → 4 ≤ r.state.byteCursor →
      ∃ r', runLine (.byte b) r = some r' ∧ r'.ops = r.ops ++ [.check, .halt] ∧ r'.unread = r.unread ++ [b]) ∧
    (¬r.state.Healthy →
      ∃ r', runLine (.byte b) r = some r' ∧ r'.ops = r.ops ++ [.halt] ∧ r'.unread = r.unread ++ [b]) ∧
    (∃ r', runLine .reset r = some r' ∧ r'.ops = r.ops ++ [.reset] ∧ r'.state.AtFrameStart)

/-! ### Outside the selecting states -/

/-- Run where the frame has room, selected there or not, PUSH.W and PUSH.F append at the present frame cursor, with the
same result: PUSH.W also with one word missing, PUSH.F also with more than one missing. The spec gives their pseudocode for
the states that select them alone; that it runs as written elsewhere is the model's inference (log 10, DEDUCED). -/
def Obligations.CompletingPushAppendsAtThePresentCursor : Prop :=
  ∀ (s : State) (b b0 b1 b2 b3 : Byte) (rest spare : List Byte), s.Shaped → s.source = b :: rest →
    s.byteBuf = b0 :: b1 :: b2 :: b3 :: spare → s.frameCursor < s.params.channels →
    ∃ t, exec (.pushW b) s = .next t ∧ exec (.pushF b) s = .next t ∧
      t = { s with
        byteBuf := b0 :: b1 :: b2 :: b :: spare, byteCursor := 0,
        frameBuf := s.frameBuf.set s.frameCursor (wordOf b0 b1 b2 b), frameCursor := s.frameCursor + 1,
        source := rest, srcRead := true, outputs := s.outputs ++ [.srcRead b] } ∧
      (s.frameCursor + 1 < s.params.channels → phase t = some (.accumulating (s.frameCursor + 1))) ∧
      (s.frameCursor + 1 = s.params.channels → phase t = some .dispatching ∧
        (s.fault = .noFault → fetch t = .ok .dispatch ∨ fetch t = .ok .reset))
end

