-- ==== Sys2Proof/Laws/Decode.lean ====
section
/-! SUPPORT. The operation map read by its upper byte: no row looks at `S[7:0]` (R79). -/

namespace Sys2Proof

/-- The selector with upper byte `q` and operand `d`. -/
def joinBytes (q d : BitVec 8) : Sel := q ++ d

/-- The upper byte of a selector, a row's mask or a match value. -/
def highByte (x : Sel) : BitVec 8 := x.extractLsb' 8 8

theorem joinBytes_bit (q d : BitVec 8) (i : Nat) :
    (joinBytes q d).getLsbD i = if i < 8 then d.getLsbD i else q.getLsbD (i - 8) := by
  show (q ++ d : BitVec (8 + 8)).getLsbD i = _
  rw [BitVec.getLsbD_append]

theorem joinBytes_and (q m d e : BitVec 8) : joinBytes q d &&& joinBytes m e = joinBytes (q &&& m) (d &&& e) := by
  apply BitVec.eq_of_getLsbD_eq
  intro i hi
  simp only [BitVec.getLsbD_and, joinBytes_bit]
  split <;> rfl

theorem joinBytes_left_inj {q p d : BitVec 8} (h : joinBytes q d = joinBytes p d) : q = p := by
  apply BitVec.eq_of_getLsbD_eq
  intro i hi
  have := congrArg (fun x : Sel => x.getLsbD (i + 8)) h
  simpa [joinBytes_bit] using this

theorem dataOf_joinBytes (q d : BitVec 8) : dataOf (joinBytes q d) = d := by
  apply BitVec.eq_of_getLsbD_eq
  intro i hi
  simp [dataOf, joinBytes_bit, hi]

theorem highByte_joinBytes (q d : BitVec 8) : highByte (joinBytes q d) = q := by
  apply BitVec.eq_of_getLsbD_eq
  intro i hi
  simp [highByte, joinBytes_bit, hi]

/-- Every selector is its upper byte followed by its operand field. -/
theorem joinBytes_eta (S : Sel) : joinBytes (highByte S) (dataOf S) = S := by
  apply BitVec.eq_of_getLsbD_eq
  intro i hi
  rw [joinBytes_bit]
  split
  · simp [dataOf, *]
  · rename_i h
    have h8 : i - 8 < 8 := by omega
    have : 8 + (i - 8) = i := by omega
    simp [highByte, h8, this]

/-- An operand merged into a match value is the match value's upper byte followed by the operand. -/
theorem or_operand (q b : BitVec 8) : joinBytes q 0#8 ||| b.setWidth 16 = joinBytes q b := by
  apply BitVec.eq_of_getLsbD_eq
  intro i hi
  simp only [BitVec.getLsbD_or, joinBytes_bit, BitVec.getLsbD_setWidth]
  split
  · simp [hi]
  · simp [BitVec.getLsbD_of_ge b i (by omega)]

theorem rows_low_byte :
    ∀ r ∈ rows, r.mask = joinBytes (highByte r.mask) 0#8 ∧ r.pattern = joinBytes (highByte r.pattern) 0#8 := by
  intro r hr
  simp only [rows, List.mem_cons, List.not_mem_nil, or_false] at hr
  rcases hr with rfl | rfl | rfl | rfl | rfl | rfl | rfl | rfl | rfl | rfl <;> exact ⟨rfl, rfl⟩

/-- A row selects by the upper byte alone. -/
theorem selects_joinBytes (q d : BitVec 8) :
    ∀ r ∈ rows, r.selects (joinBytes q d) = (q &&& highByte r.mask == highByte r.pattern) := by
  intro r hr
  obtain ⟨hm, hp⟩ := rows_low_byte r hr
  unfold Row.selects
  rw [show (joinBytes q d &&& r.mask) = joinBytes (q &&& highByte r.mask) 0#8 from by
    conv_lhs => rw [hm]
    rw [joinBytes_and, BitVec.and_zero]]
  apply Bool.eq_iff_iff.2
  simp only [beq_iff_eq]
  constructor
  · intro h
    rw [hp] at h
    exact joinBytes_left_inj h
  · intro h
    rw [hp, h]

/-- The operation of an upper byte, with the operand `d`. -/
def decodeHigh (q d : BitVec 8) : Except DecodeError Instr :=
  match rows.find? (fun r => q &&& highByte r.mask == highByte r.pattern) with
  | some r => .ok (r.build d)
  | none => .error .noRow

/-- Decoding looks at the upper byte for the row and at the lower byte for the operand alone. -/
theorem decode_joinBytes (q d : BitVec 8) : decode (joinBytes q d) = decodeHigh q d := by
  have h : rows.find? (fun r => r.selects (joinBytes q d)) =
      rows.find? (fun r => q &&& highByte r.mask == highByte r.pattern) := List.find?_congr (selects_joinBytes q d)
  let answer (o : Option Row) (e : Byte) : Except DecodeError Instr :=
    match o with
    | some r => .ok (r.build e)
    | none => .error .noRow
  exact congr (congrArg answer h) (dataOf_joinBytes q d)

end Sys2Proof
end

