-- ==== Sys2Proof/Laws/State.lean ====
section
/-! SUPPORT. One lemma per field per update of the state, true by rfl, so that no proof unfolds a record update. -/

namespace Sys2Proof.Machine.State

variable (s : State)

@[simp] theorem setByteCell_params (k : Nat) (b : Byte) : (setByteCell k b s).params = s.params := rfl
@[simp] theorem setByteCell_byteBuf (k : Nat) (b : Byte) : (setByteCell k b s).byteBuf = s.byteBuf.set k b := rfl
@[simp] theorem setByteCell_byteCursor (k : Nat) (b : Byte) : (setByteCell k b s).byteCursor = s.byteCursor := rfl
@[simp] theorem setByteCell_frameBuf (k : Nat) (b : Byte) : (setByteCell k b s).frameBuf = s.frameBuf := rfl
@[simp] theorem setByteCell_frameCursor (k : Nat) (b : Byte) : (setByteCell k b s).frameCursor = s.frameCursor := rfl
@[simp] theorem setByteCell_fault (k : Nat) (b : Byte) : (setByteCell k b s).fault = s.fault := rfl
@[simp] theorem setByteCell_source (k : Nat) (b : Byte) : (setByteCell k b s).source = s.source := rfl
@[simp] theorem setByteCell_draws (k : Nat) (b : Byte) : (setByteCell k b s).draws = s.draws := rfl
@[simp] theorem setByteCell_srcRead (k : Nat) (b : Byte) : (setByteCell k b s).srcRead = s.srcRead := rfl
@[simp] theorem setByteCell_outputs (k : Nat) (b : Byte) : (setByteCell k b s).outputs = s.outputs := rfl
@[simp] theorem setByteCell_unspecDraws (k : Nat) (b : Byte) : (setByteCell k b s).unspecDraws = s.unspecDraws := rfl

@[simp] theorem setByteCursor_params (c : Nat) : (setByteCursor c s).params = s.params := rfl
@[simp] theorem setByteCursor_byteBuf (c : Nat) : (setByteCursor c s).byteBuf = s.byteBuf := rfl
@[simp] theorem setByteCursor_byteCursor (c : Nat) : (setByteCursor c s).byteCursor = c := rfl
@[simp] theorem setByteCursor_frameBuf (c : Nat) : (setByteCursor c s).frameBuf = s.frameBuf := rfl
@[simp] theorem setByteCursor_frameCursor (c : Nat) : (setByteCursor c s).frameCursor = s.frameCursor := rfl
@[simp] theorem setByteCursor_fault (c : Nat) : (setByteCursor c s).fault = s.fault := rfl
@[simp] theorem setByteCursor_source (c : Nat) : (setByteCursor c s).source = s.source := rfl
@[simp] theorem setByteCursor_draws (c : Nat) : (setByteCursor c s).draws = s.draws := rfl
@[simp] theorem setByteCursor_srcRead (c : Nat) : (setByteCursor c s).srcRead = s.srcRead := rfl
@[simp] theorem setByteCursor_outputs (c : Nat) : (setByteCursor c s).outputs = s.outputs := rfl
@[simp] theorem setByteCursor_unspecDraws (c : Nat) : (setByteCursor c s).unspecDraws = s.unspecDraws := rfl

@[simp] theorem setFrameCell_params (i : Nat) (w : Word) : (setFrameCell i w s).params = s.params := rfl
@[simp] theorem setFrameCell_byteBuf (i : Nat) (w : Word) : (setFrameCell i w s).byteBuf = s.byteBuf := rfl
@[simp] theorem setFrameCell_byteCursor (i : Nat) (w : Word) : (setFrameCell i w s).byteCursor = s.byteCursor := rfl
@[simp] theorem setFrameCell_frameBuf (i : Nat) (w : Word) : (setFrameCell i w s).frameBuf = s.frameBuf.set i w := rfl
@[simp] theorem setFrameCell_frameCursor (i : Nat) (w : Word) : (setFrameCell i w s).frameCursor = s.frameCursor := rfl
@[simp] theorem setFrameCell_fault (i : Nat) (w : Word) : (setFrameCell i w s).fault = s.fault := rfl
@[simp] theorem setFrameCell_source (i : Nat) (w : Word) : (setFrameCell i w s).source = s.source := rfl
@[simp] theorem setFrameCell_draws (i : Nat) (w : Word) : (setFrameCell i w s).draws = s.draws := rfl
@[simp] theorem setFrameCell_srcRead (i : Nat) (w : Word) : (setFrameCell i w s).srcRead = s.srcRead := rfl
@[simp] theorem setFrameCell_outputs (i : Nat) (w : Word) : (setFrameCell i w s).outputs = s.outputs := rfl
@[simp] theorem setFrameCell_unspecDraws (i : Nat) (w : Word) : (setFrameCell i w s).unspecDraws = s.unspecDraws := rfl

@[simp] theorem setFrameCursor_params (c : Nat) : (setFrameCursor c s).params = s.params := rfl
@[simp] theorem setFrameCursor_byteBuf (c : Nat) : (setFrameCursor c s).byteBuf = s.byteBuf := rfl
@[simp] theorem setFrameCursor_byteCursor (c : Nat) : (setFrameCursor c s).byteCursor = s.byteCursor := rfl
@[simp] theorem setFrameCursor_frameBuf (c : Nat) : (setFrameCursor c s).frameBuf = s.frameBuf := rfl
@[simp] theorem setFrameCursor_frameCursor (c : Nat) : (setFrameCursor c s).frameCursor = c := rfl
@[simp] theorem setFrameCursor_fault (c : Nat) : (setFrameCursor c s).fault = s.fault := rfl
@[simp] theorem setFrameCursor_source (c : Nat) : (setFrameCursor c s).source = s.source := rfl
@[simp] theorem setFrameCursor_draws (c : Nat) : (setFrameCursor c s).draws = s.draws := rfl
@[simp] theorem setFrameCursor_srcRead (c : Nat) : (setFrameCursor c s).srcRead = s.srcRead := rfl
@[simp] theorem setFrameCursor_outputs (c : Nat) : (setFrameCursor c s).outputs = s.outputs := rfl
@[simp] theorem setFrameCursor_unspecDraws (c : Nat) : (setFrameCursor c s).unspecDraws = s.unspecDraws := rfl

@[simp] theorem setFault_params (c : FaultCode) : (setFault c s).params = s.params := rfl
@[simp] theorem setFault_byteBuf (c : FaultCode) : (setFault c s).byteBuf = s.byteBuf := rfl
@[simp] theorem setFault_byteCursor (c : FaultCode) : (setFault c s).byteCursor = s.byteCursor := rfl
@[simp] theorem setFault_frameBuf (c : FaultCode) : (setFault c s).frameBuf = s.frameBuf := rfl
@[simp] theorem setFault_frameCursor (c : FaultCode) : (setFault c s).frameCursor = s.frameCursor := rfl
@[simp] theorem setFault_fault (c : FaultCode) : (setFault c s).fault = c := rfl
@[simp] theorem setFault_source (c : FaultCode) : (setFault c s).source = s.source := rfl
@[simp] theorem setFault_draws (c : FaultCode) : (setFault c s).draws = s.draws := rfl
@[simp] theorem setFault_srcRead (c : FaultCode) : (setFault c s).srcRead = s.srcRead := rfl
@[simp] theorem setFault_outputs (c : FaultCode) : (setFault c s).outputs = s.outputs := rfl
@[simp] theorem setFault_unspecDraws (c : FaultCode) : (setFault c s).unspecDraws = s.unspecDraws := rfl

@[simp] theorem setSrcRead_params (r : Bool) : (setSrcRead r s).params = s.params := rfl
@[simp] theorem setSrcRead_byteBuf (r : Bool) : (setSrcRead r s).byteBuf = s.byteBuf := rfl
@[simp] theorem setSrcRead_byteCursor (r : Bool) : (setSrcRead r s).byteCursor = s.byteCursor := rfl
@[simp] theorem setSrcRead_frameBuf (r : Bool) : (setSrcRead r s).frameBuf = s.frameBuf := rfl
@[simp] theorem setSrcRead_frameCursor (r : Bool) : (setSrcRead r s).frameCursor = s.frameCursor := rfl
@[simp] theorem setSrcRead_fault (r : Bool) : (setSrcRead r s).fault = s.fault := rfl
@[simp] theorem setSrcRead_source (r : Bool) : (setSrcRead r s).source = s.source := rfl
@[simp] theorem setSrcRead_draws (r : Bool) : (setSrcRead r s).draws = s.draws := rfl
@[simp] theorem setSrcRead_srcRead (r : Bool) : (setSrcRead r s).srcRead = r := rfl
@[simp] theorem setSrcRead_outputs (r : Bool) : (setSrcRead r s).outputs = s.outputs := rfl
@[simp] theorem setSrcRead_unspecDraws (r : Bool) : (setSrcRead r s).unspecDraws = s.unspecDraws := rfl

@[simp] theorem setSource_params (bs : List Byte) : (setSource bs s).params = s.params := rfl
@[simp] theorem setSource_byteBuf (bs : List Byte) : (setSource bs s).byteBuf = s.byteBuf := rfl
@[simp] theorem setSource_byteCursor (bs : List Byte) : (setSource bs s).byteCursor = s.byteCursor := rfl
@[simp] theorem setSource_frameBuf (bs : List Byte) : (setSource bs s).frameBuf = s.frameBuf := rfl
@[simp] theorem setSource_frameCursor (bs : List Byte) : (setSource bs s).frameCursor = s.frameCursor := rfl
@[simp] theorem setSource_fault (bs : List Byte) : (setSource bs s).fault = s.fault := rfl
@[simp] theorem setSource_source (bs : List Byte) : (setSource bs s).source = bs := rfl
@[simp] theorem setSource_draws (bs : List Byte) : (setSource bs s).draws = s.draws := rfl
@[simp] theorem setSource_srcRead (bs : List Byte) : (setSource bs s).srcRead = s.srcRead := rfl
@[simp] theorem setSource_outputs (bs : List Byte) : (setSource bs s).outputs = s.outputs := rfl
@[simp] theorem setSource_unspecDraws (bs : List Byte) : (setSource bs s).unspecDraws = s.unspecDraws := rfl

@[simp] theorem setDraws_params (ds : List Draw) : (setDraws ds s).params = s.params := rfl
@[simp] theorem setDraws_byteBuf (ds : List Draw) : (setDraws ds s).byteBuf = s.byteBuf := rfl
@[simp] theorem setDraws_byteCursor (ds : List Draw) : (setDraws ds s).byteCursor = s.byteCursor := rfl
@[simp] theorem setDraws_frameBuf (ds : List Draw) : (setDraws ds s).frameBuf = s.frameBuf := rfl
@[simp] theorem setDraws_frameCursor (ds : List Draw) : (setDraws ds s).frameCursor = s.frameCursor := rfl
@[simp] theorem setDraws_fault (ds : List Draw) : (setDraws ds s).fault = s.fault := rfl
@[simp] theorem setDraws_source (ds : List Draw) : (setDraws ds s).source = s.source := rfl
@[simp] theorem setDraws_draws (ds : List Draw) : (setDraws ds s).draws = ds := rfl
@[simp] theorem setDraws_srcRead (ds : List Draw) : (setDraws ds s).srcRead = s.srcRead := rfl
@[simp] theorem setDraws_outputs (ds : List Draw) : (setDraws ds s).outputs = s.outputs := rfl
@[simp] theorem setDraws_unspecDraws (ds : List Draw) : (setDraws ds s).unspecDraws = s.unspecDraws := rfl

@[simp] theorem emit_params (es : List Event) : (emit es s).params = s.params := rfl
@[simp] theorem emit_byteBuf (es : List Event) : (emit es s).byteBuf = s.byteBuf := rfl
@[simp] theorem emit_byteCursor (es : List Event) : (emit es s).byteCursor = s.byteCursor := rfl
@[simp] theorem emit_frameBuf (es : List Event) : (emit es s).frameBuf = s.frameBuf := rfl
@[simp] theorem emit_frameCursor (es : List Event) : (emit es s).frameCursor = s.frameCursor := rfl
@[simp] theorem emit_fault (es : List Event) : (emit es s).fault = s.fault := rfl
@[simp] theorem emit_source (es : List Event) : (emit es s).source = s.source := rfl
@[simp] theorem emit_draws (es : List Event) : (emit es s).draws = s.draws := rfl
@[simp] theorem emit_srcRead (es : List Event) : (emit es s).srcRead = s.srcRead := rfl
@[simp] theorem emit_outputs (es : List Event) : (emit es s).outputs = s.outputs ++ es := rfl
@[simp] theorem emit_unspecDraws (es : List Event) : (emit es s).unspecDraws = s.unspecDraws := rfl

@[simp] theorem forgetBuffers_params : (forgetBuffers s).params = s.params := rfl
@[simp] theorem forgetBuffers_byteBuf : (forgetBuffers s).byteBuf = (List.range s.params.byteBufCap).map (Config.unspecifiedByte s.unspecDraws) := rfl
@[simp] theorem forgetBuffers_byteCursor : (forgetBuffers s).byteCursor = s.byteCursor := rfl
@[simp] theorem forgetBuffers_frameBuf : (forgetBuffers s).frameBuf = (List.range s.params.channels).map (Config.unspecifiedWord s.unspecDraws) := rfl
@[simp] theorem forgetBuffers_frameCursor : (forgetBuffers s).frameCursor = s.frameCursor := rfl
@[simp] theorem forgetBuffers_fault : (forgetBuffers s).fault = s.fault := rfl
@[simp] theorem forgetBuffers_source : (forgetBuffers s).source = s.source := rfl
@[simp] theorem forgetBuffers_draws : (forgetBuffers s).draws = s.draws := rfl
@[simp] theorem forgetBuffers_srcRead : (forgetBuffers s).srcRead = s.srcRead := rfl
@[simp] theorem forgetBuffers_outputs : (forgetBuffers s).outputs = s.outputs := rfl
@[simp] theorem forgetBuffers_unspecDraws : (forgetBuffers s).unspecDraws = s.unspecDraws + 1 := rfl

end Sys2Proof.Machine.State

namespace Sys2Proof.Machine

variable (s : State)

@[simp] theorem sample_params : (sample s).params = s.params := rfl
@[simp] theorem sample_byteBuf : (sample s).byteBuf = s.byteBuf := rfl
@[simp] theorem sample_byteCursor : (sample s).byteCursor = s.byteCursor := rfl
@[simp] theorem sample_frameBuf : (sample s).frameBuf = s.frameBuf := rfl
@[simp] theorem sample_frameCursor : (sample s).frameCursor = s.frameCursor := rfl
@[simp] theorem sample_fault : (sample s).fault = s.fault := rfl
@[simp] theorem sample_source : (sample s).source = s.source ++ (nextDraw s).arrivals := rfl
@[simp] theorem sample_draws : (sample s).draws = s.draws.tail := rfl
@[simp] theorem sample_srcRead : (sample s).srcRead = s.srcRead := rfl
@[simp] theorem sample_outputs : (sample s).outputs = s.outputs := rfl
@[simp] theorem sample_unspecDraws : (sample s).unspecDraws = s.unspecDraws := rfl

@[simp] theorem raiseFault_params (c : FaultCode) : (raiseFault c s).params = s.params := rfl
@[simp] theorem raiseFault_byteBuf (c : FaultCode) : (raiseFault c s).byteBuf = s.byteBuf := rfl
@[simp] theorem raiseFault_byteCursor (c : FaultCode) : (raiseFault c s).byteCursor = s.byteCursor := rfl
@[simp] theorem raiseFault_frameBuf (c : FaultCode) : (raiseFault c s).frameBuf = s.frameBuf := rfl
@[simp] theorem raiseFault_frameCursor (c : FaultCode) : (raiseFault c s).frameCursor = s.frameCursor := rfl
@[simp] theorem raiseFault_fault (c : FaultCode) : (raiseFault c s).fault = c := rfl
@[simp] theorem raiseFault_source (c : FaultCode) : (raiseFault c s).source = s.source := rfl
@[simp] theorem raiseFault_draws (c : FaultCode) : (raiseFault c s).draws = s.draws := rfl
@[simp] theorem raiseFault_srcRead (c : FaultCode) : (raiseFault c s).srcRead = false := rfl
@[simp] theorem raiseFault_outputs (c : FaultCode) : (raiseFault c s).outputs = s.outputs ++ [.faultOut c.code] := rfl
@[simp] theorem raiseFault_unspecDraws (c : FaultCode) : (raiseFault c s).unspecDraws = s.unspecDraws := rfl

end Sys2Proof.Machine
end

