-- ==== Sys2Proof/Laws/Ops.lean ====
section
/-! SUPPORT. For each shared operation, once, everything it can do: the provers cite these instead of unfolding it. -/

namespace Sys2Proof.Machine

variable {s t : State} {b : Byte} {k : Nat} {w : Word}

/-- The state after a read of head byte `b`, the rest of the source being `rest` (R57, R100). -/
def afterRead (b : Byte) (rest : List Byte) (s : State) : State :=
  ((s.setSource rest).setSrcRead true).emit [.srcRead b]

theorem readSource_eq_some : readSource b s = some t ↔ ∃ rest, s.source = b :: rest ∧ t = afterRead b rest s := by
  unfold readSource afterRead
  rcases s.source with _ | ⟨c, rest⟩
  · simp
  · by_cases h : c = b
    · simp [h, eq_comm]
    · simp [h]

theorem readSource_of_head {rest : List Byte} (h : s.source = b :: rest) : readSource b s = some (afterRead b rest s) :=
  readSource_eq_some.2 ⟨rest, h, rfl⟩

theorem readSource_eq_none : readSource b s = none ↔ s.source.head? ≠ some b := by
  unfold readSource
  rcases s.source with _ | ⟨c, rest⟩
  · simp
  · by_cases h : c = b <;> simp [h]

theorem storeByte_eq_some : storeByte k b s = some t ↔ k < s.byteBuf.length ∧ t = s.setByteCell k b := by
  unfold storeByte
  by_cases h : k < s.byteBuf.length <;> simp [h, eq_comm]

theorem append_eq_some :
    append w s = some t ↔
      s.frameCursor < s.frameBuf.length ∧
        t = (s.setFrameCell s.frameCursor w).setFrameCursor (s.frameCursor + 1) := by
  unfold append
  by_cases h : s.frameCursor < s.frameBuf.length <;> simp [h, eq_comm]

theorem groupWord_eq_some :
    groupWord b s = some w ↔
      ∃ b0 b1 b2, s.byteBuf[0]? = some b0 ∧ s.byteBuf[1]? = some b1 ∧ s.byteBuf[2]? = some b2 ∧
        w = wordOf b0 b1 b2 b := by
  unfold groupWord
  rcases s.byteBuf[0]? with _ | b0 <;> rcases s.byteBuf[1]? with _ | b1 <;> rcases s.byteBuf[2]? with _ | b2 <;>
    simp [eq_comm]

theorem frameCells_eq_some {F : List Word} :
    frameCells s = some F ↔ s.params.channels ≤ s.frameBuf.length ∧ F = s.frameBuf.take s.params.channels := by
  unfold frameCells
  by_cases h : s.params.channels ≤ s.frameBuf.length <;> simp [h, eq_comm]

/-- What completing a word can do: cell 3 written, the word of the group appended, the byte cursor 0. -/
theorem completeWord_eq_some :
    completeWord b s = some t ↔
      3 < s.byteBuf.length ∧ s.frameCursor < s.frameBuf.length ∧
        ∃ w, groupWord b s = some w ∧
          t = (((s.setByteCell 3 b).setByteCursor 0).setFrameCell s.frameCursor w).setFrameCursor
            (s.frameCursor + 1) := by
  unfold completeWord
  by_cases h : 3 < s.byteBuf.length
  · have hs : storeByte 3 b s = some (s.setByteCell 3 b) := storeByte_eq_some.2 ⟨h, rfl⟩
    rcases hw : groupWord b s with _ | w
    · simp [hs, h]
    · simp [hs, h, append_eq_some]
  · have hs : storeByte 3 b s = none := by simp [storeByte, h]
    simp [hs, h]

/-- If `pushByte` answers a next state, it read the head of the source, stored it in cell `k`, set the cursor. -/
theorem pushByte_next :
    pushByte k b s = .next t ↔
      ∃ rest, s.source = b :: rest ∧ k < s.byteBuf.length ∧
        t = ((afterRead b rest s).setByteCell k b).setByteCursor (k + 1) := by
  unfold pushByte
  rcases hr : readSource b s with _ | r
  · have := readSource_eq_none.1 hr
    simp only [reduceCtorEq, false_iff, not_exists, not_and]
    rintro rest h
    simp [h] at this
  · obtain ⟨rest, hsrc, rfl⟩ := readSource_eq_some.1 hr
    have hlen : (afterRead b rest s).byteBuf = s.byteBuf := rfl
    by_cases h : k < s.byteBuf.length
    · simp [storeByte, hlen, h, hsrc, eq_comm]
    · simp [storeByte, hlen, h]

/-- If `pushWord` answers a next state, either the frame had room and the word was appended, or APPEND's assertion
failed and FRAME_OVERRUN was raised from the state before the step. -/
theorem pushWord_next :
    pushWord b s = .next t ↔
      ∃ rest, s.source = b :: rest ∧
        (s.frameCursor < s.params.channels ∧ completeWord b (afterRead b rest s) = some t ∨
          s.params.channels ≤ s.frameCursor ∧ t = raiseFault .frameOverrun s) := by
  unfold pushWord
  rcases hr : readSource b s with _ | r
  · have := readSource_eq_none.1 hr
    simp only [reduceCtorEq, false_iff, not_exists, not_and]
    rintro rest h
    simp [h] at this
  · obtain ⟨rest, hsrc, rfl⟩ := readSource_eq_some.1 hr
    by_cases h : s.frameCursor < s.params.channels
    · rcases hc : completeWord b (afterRead b rest s) with _ | u
      · simp [h, hsrc, hc]
      · simp [h, hsrc, hc]
    · simp [h, hsrc, Nat.le_of_not_lt h, eq_comm]

/-- If DISPATCH answers a next state, it emitted the dispatch events of the frame and reset the cursor. -/
theorem execDispatch_next :
    execDispatch s = .next t ↔
      s.params.channels ≤ s.frameBuf.length ∧
        t = ((s.emit (dispatchEvents (s.frameBuf.take s.params.channels))).setFrameCursor 0).setSrcRead false := by
  unfold execDispatch
  by_cases h : s.params.channels ≤ s.frameBuf.length <;> simp [frameCells, h, eq_comm]

end Sys2Proof.Machine
end

