-- ==== Sys2Proof/Laws/PerInstr.lean ====
section
/-! SUPPORT. Families of statements about every operation as syntax, one lemma per constructor. -/

namespace Sys2Proof.Laws.DecodeEncode

/-- Decoding the encoded operation gives it back, operand and all (R79, R81). -/
def Statement (i : Instr) : Prop := decode (encode i) = .ok i

theorem reset : Statement .reset := rfl
theorem halt : Statement .halt := rfl
theorem check : Statement .check := rfl
theorem dispatch : Statement .dispatch := rfl
theorem idle : Statement .idle := rfl

theorem pushB0 (b : Byte) : Statement (.pushB0 b) := by
  rw [Statement, show encode (.pushB0 b) = joinBytes 0x08#8 b from or_operand 0x08#8 b, decode_joinBytes]; rfl

theorem pushB1 (b : Byte) : Statement (.pushB1 b) := by
  rw [Statement, show encode (.pushB1 b) = joinBytes 0x0A#8 b from or_operand 0x0A#8 b, decode_joinBytes]; rfl

theorem pushB2 (b : Byte) : Statement (.pushB2 b) := by
  rw [Statement, show encode (.pushB2 b) = joinBytes 0x0C#8 b from or_operand 0x0C#8 b, decode_joinBytes]; rfl

theorem pushW (b : Byte) : Statement (.pushW b) := by
  rw [Statement, show encode (.pushW b) = joinBytes 0x0E#8 b from or_operand 0x0E#8 b, decode_joinBytes]; rfl

theorem pushF (b : Byte) : Statement (.pushF b) := by
  rw [Statement, show encode (.pushF b) = joinBytes 0x0F#8 b from or_operand 0x0F#8 b, decode_joinBytes]; rfl

end Sys2Proof.Laws.DecodeEncode
end

