-- ==== Sys2Proof/Laws/Step.lean ====
section
/-! SUPPORT. What a step can do: it runs the fetched operation on the sampled state. -/

namespace Sys2Proof.Machine

theorem step_of_fetch {s : State} {i : Instr} (h : fetch s = .ok i) : step s = exec i (sample s) := by
  simp [step, h]

theorem step_next_iff {s t : State} : step s = .next t ↔ ∃ i, fetch s = .ok i ∧ exec i (sample s) = .next t := by
  unfold step
  rcases fetch s with e | i <;> simp

/-- The sampled state has the block's fields of `s`; only the source and the draws move. -/
theorem sample_eq (s : State) :
    sample s = { s with source := s.source ++ (nextDraw s).arrivals, draws := s.draws.tail } := rfl

/-- A run of `k + 1` steps that answers is a step that answers and a run of `k` steps from there. -/
theorem run_succ_next_iff {k : Nat} {s u : State} :
    Sys2Proof.core.run (k + 1) s = .next u ↔ ∃ t, step s = .next t ∧ Sys2Proof.core.run k t = .next u := by
  have h : Sys2Proof.core.step s = step s := rfl
  simp only [Host.Core.run, h]
  rcases step s with t | r | r <;> simp

end Sys2Proof.Machine
end

