-- ==== Sys2Proof/Laws/Stimulus.lean ====
section
/-! SUPPORT. What presenting a line leaves of the block, and what one runner step does. -/

namespace Sys2Proof.Machine

theorem nextDraw_present (l : Line) (s : State) :
    nextDraw (present l s) = { rst := lineRst l, arrivals := [], floatData := 0#8 } := rfl

/-- With a line presented the block differs from `s` in its source and its draws alone. -/
theorem sample_present_eq (l : Line) (s : State) :
    sample (present l s) = { s with source := lineOffer l, draws := [] } := by
  simp [sample, present, nextDraw, State.setSource, State.setDraws]

/-- One runner step, from the operation selected and its result. -/
theorem takeStep_of_exec {l : Line} {r : Runner} {i : Instr} {t : State} (hf : fetch (present l r.state) = .ok i)
    (he : exec i (sample (present l r.state)) = .next t) :
    takeStep l r = some { r with state := (t.setSource []).setDraws [], ops := r.ops ++ [i] } := by
  simp [takeStep, selectedBy, hf, step_of_fetch hf, he]

/-- A line waits exactly while DISPATCH or CHECK is selected. -/
theorem waits_iff {l : Line} {s : State} :
    waits l s = true ↔ fetch (present l s) = .ok .dispatch ∨ fetch (present l s) = .ok .check := by
  unfold waits selectedBy
  rcases fetch (present l s) with e | i
  · simp
  · cases i <;> simp

end Sys2Proof.Machine
end

