-- ==== Sys2Proof/Tests/Slice0.lean ====
section
/-! SUPPORT. Tests. Expected values are transcribed from 95_test_vectors.md (its ids are named) or worked out by hand from
the rule named. The second half shows, for every statement of Obligations.lean that has hypotheses, states and operands
that meet them together. -/

namespace Sys2Proof.Tests
open Sys2Proof Sys2Proof.Machine

/-! ### Helpers -/

/-- A healthy block of this hardware with the given cursors and source. -/
def blockAt (bc fc : Nat) (src : List Byte) : State :=
  { State.reset with byteCursor := bc, frameCursor := fc, source := src }

/-- The same with the first byte cells given. -/
def blockWith (bc fc : Nat) (cells : List Byte) (src : List Byte) : State :=
  { blockAt bc fc src with byteBuf := cells }

/-- A block with one channel. -/
def oneChannel (bc fc : Nat) (cells : List Byte) (src : List Byte) : State :=
  { State.resetWith { channels := 1, byteBufCap := 4 } with
    byteCursor := bc, frameCursor := fc, byteBuf := cells, source := src }

/-- The next draw asserts `rst`. -/
def resetDraw : Draw := { rst := true, arrivals := [], floatData := 0#8 }

/-- `s` with `rst` at the coming step. -/
def underReset (s : State) : State := { s with draws := [resetDraw] }

/-- A check on the next state; false where the machine stops. -/
def nextIs (o : Host.Outcome State Fault Refusal) (p : State → Bool) : Bool :=
  match o with
  | .next t => p t
  | .fault _ => false
  | .refused _ => false

/-- The cursors of a state. -/
def cursors (t : State) : Nat × Nat := (t.byteCursor, t.frameCursor)

/-- Characters as bytes. -/
def text (cs : List Char) : List Byte := cs.map fun c => BitVec.ofNat 8 c.toNat

/-- The frame of V9. -/
def frameV9 : List Word := [1500, 1500, 1000, 2000, 0, -1].map fun v => BitVec.ofInt 32 v

/-- The frame of V13. -/
def frameV13 : List Word := List.replicate 6 0x80000000#32

/-- A block about to dispatch the given frame. -/
def pending (F : List Word) (src : List Byte) : State := { blockAt 0 6 src with frameBuf := F }

/-! ### WellFormed refuses ill-formed terms -/

theorem test_params_of_this_hardware_wf : Config.thisHardware.wf = true := by decide
theorem test_params_least_wf : Params.wf { channels := 1, byteBufCap := 4 } = true := by decide
theorem test_no_channel_refused : Params.wf { channels := 0, byteBufCap := 4 } = false := by decide
theorem test_three_byte_cells_refused : Params.wf { channels := 6, byteBufCap := 3 } = false := by decide
theorem test_word_extremes_wf :
    PseudoLine.wf Config.thisHardware (.word (-2147483648)) = true ∧
    PseudoLine.wf Config.thisHardware (.word 2147483647) = true := by decide
theorem test_word_too_small_refused :
    PseudoLine.wf Config.thisHardware (.word (-2147483649)) = false := by decide
theorem test_word_too_large_refused :
    PseudoLine.wf Config.thisHardware (.word 2147483648) = false := by decide
theorem test_frame_of_five_refused :
    PseudoLine.wf Config.thisHardware (.frame [1, 2, 3, 4, 5]) = false := by decide
theorem test_frame_of_seven_refused :
    PseudoLine.wf Config.thisHardware (.frame [1, 2, 3, 4, 5, 6, 7]) = false := by decide
theorem test_frame_value_out_of_range_refused :
    PseudoLine.wf Config.thisHardware (.frame [1, 2, 3, 4, 5, 2147483648]) = false := by decide
theorem test_frame_of_six_wf :
    PseudoLine.wf Config.thisHardware (.frame [1500, 1500, 1000, 2000, 0, -1]) = true := by decide

/-! ### Decoding: the words of 95_test_vectors.md section 2.5 -/

theorem test_decode_reset : decodeTableWord 16 0x8000 = some .reset := by decide
theorem test_decode_reset_wins : decodeTableWord 16 0xFFFF = some .reset := by decide
theorem test_decode_halt : decodeTableWord 16 0x4800 = some .halt := by decide
theorem test_decode_halt_before_check : decodeTableWord 16 0x6000 = some .halt := by decide
theorem test_decode_check : decodeTableWord 16 0x2000 = some .check := by decide
theorem test_decode_dispatch : decodeTableWord 16 0x1800 = some .dispatch := by decide
theorem test_decode_idle : decodeTableWord 16 0x0000 = some .idle := by decide
theorem test_decode_idle_in_last_word : decodeTableWord 16 0x0700 = some .idle := by decide
theorem test_decode_pushB0 : decodeTableWord 16 0x08DC = some (.pushB0 0xDC#8) := by decide
theorem test_decode_pushB1 : decodeTableWord 16 0x0A05 = some (.pushB1 0x05#8) := by decide
theorem test_decode_pushB2_in_last_word : decodeTableWord 16 0x0D00 = some (.pushB2 0x00#8) := by decide
theorem test_decode_pushW : decodeTableWord 16 0x0E00 = some (.pushW 0x00#8) := by decide
theorem test_decode_pushF : decodeTableWord 16 0x0FFF = some (.pushF 0xFF#8) := by decide
/-- A selector is 16 bits (R78). -/
theorem test_wide_word_rejected_by_name : decodeWord 17 0x10000 = .error .wordTooWide := by rfl
/-- Match values of R79, operand in `S[7:0]`, don't-care bits 0. -/
theorem test_encode_words :
    encode .reset = 0x8000#16 ∧ encode .halt = 0x4000#16 ∧ encode .check = 0x2000#16 ∧ encode .dispatch = 0x1000#16 ∧
    encode .idle = 0x0000#16 ∧ encode (.pushB0 0xDC#8) = 0x08DC#16 ∧ encode (.pushB1 0x05#8) = 0x0A05#16 ∧
    encode (.pushB2 0x00#8) = 0x0C00#16 ∧ encode (.pushW 0x00#8) = 0x0E00#16 ∧
    encode (.pushF 0xFF#8) = 0x0FFF#16 := by decide
/-- Placing the word of HALT in the healthy reset state: the block is then faulted and the step emits nothing (R172). -/
theorem test_placed_halt_runs :
    nextIs (step (State.reset.withFetchWord 16 0x4800)) (fun t => faulted t && t.outputs == []) = true := by decide

/-! ### The Integer Decoder: 95_test_vectors.md section 2.1 -/

theorem test_decoder_signs :
    decodeInt 0xFF#8 0xFF#8 0xFF#8 0xFF#8 = -1 ∧ decodeInt 0x00#8 0x00#8 0x00#8 0x80#8 = -2147483648 ∧
    decodeInt 0xFF#8 0xFF#8 0xFF#8 0x7F#8 = 2147483647 ∧ decodeInt 0x00#8 0x00#8 0x00#8 0xFF#8 = -16777216 := by decide
theorem test_decoder_low_bytes_are_unsigned :
    decodeInt 0x80#8 0x00#8 0x00#8 0x00#8 = 128 ∧ decodeInt 0x00#8 0x80#8 0x00#8 0x00#8 = 32768 ∧
    decodeInt 0x00#8 0x00#8 0x80#8 0x00#8 = 8388608 := by decide
theorem test_decoder_byte_order :
    decodeInt 0x78#8 0x56#8 0x34#8 0x12#8 = 305419896 ∧ decodeInt 0x18#8 0xFC#8 0xFF#8 0xFF#8 = -1000 := by decide
theorem test_sender_bytes :
    bytesOf (u32 (-1000)) = [0x18#8, 0xFC#8, 0xFF#8, 0xFF#8] ∧
    bytesOf (u32 (-2147483648)) = [0x00#8, 0x00#8, 0x00#8, 0x80#8] := by decide

/-! ### The PUSH family: 95_test_vectors.md section 2.2 -/

theorem test_V1_pushB0 :
    nextIs (step (blockAt 0 0 [0xDC#8])) (fun t => cursors t == (1, 0) && t.byteBuf[0]? == some 0xDC#8 &&
      t.outputs == [.srcRead 0xDC#8] && t.source == []) = true := by decide
theorem test_V2_pushB1 :
    nextIs (step (blockWith 1 0 [0xDC#8, 0, 0, 0] [0x05#8])) (fun t => cursors t == (2, 0) &&
      t.byteBuf.take 2 == [0xDC#8, 0x05#8]) = true := by decide
theorem test_V3_pushB2 :
    nextIs (step (blockWith 2 0 [0xDC#8, 0x05#8, 0x77#8, 0] [0x00#8])) (fun t => cursors t == (3, 0) &&
      t.byteBuf.take 3 == [0xDC#8, 0x05#8, 0x00#8]) = true := by decide
theorem test_V4_pushW :
    nextIs (step (blockWith 3 0 [0xDC#8, 0x05#8, 0, 0] [0x00#8])) (fun t => cursors t == (0, 1) &&
      t.frameBuf[0]? == some 1500#32 && t.outputs == [.srcRead 0x00#8]) = true := by decide
theorem test_V5_pushW_sign :
    nextIs (step (blockAt 3 4 [0x80#8])) (fun t => cursors t == (0, 5) &&
      t.frameBuf[4]?.map BitVec.toInt == some (-2147483648)) = true := by decide
theorem test_V6_pushF :
    nextIs (step (blockWith 3 5 [0xFF#8, 0xFF#8, 0xFF#8, 0] [0xFF#8])) (fun t => cursors t == (0, 6) &&
      t.frameBuf[5]?.map BitVec.toInt == some (-1) && phase t == some .dispatching) = true := by decide
theorem test_V7_pushF_one_channel :
    nextIs (step (oneChannel 3 0 [0x01#8, 0, 0, 0] [0x00#8])) (fun t => cursors t == (0, 1) &&
      t.frameBuf == [1#32] && phase t == some .dispatching) = true := by decide
theorem test_V8_pushB0_inside_frame :
    nextIs (step (blockAt 0 2 [0xFF#8])) (fun t => cursors t == (1, 2) && t.byteBuf[0]? == some 0xFF#8 &&
      t.frameBuf == State.reset.frameBuf) = true := by decide
/-- R218: a forced read, no byte available. -/
theorem test_forced_read_refused : exec (.pushB2 0xDC#8) State.reset = .refused .readNotOffered := by rfl
/-- A byte that arrives at a step is available to that step (R38, D17). -/
theorem test_arrival_is_read_at_once :
    nextIs (step { blockAt 1 0 [] with draws := [{ rst := false, arrivals := [0xDC#8, 0x05#8], floatData := 0#8 }] })
      (fun t => cursors t == (2, 0) && t.source == [0x05#8] && t.draws == []) = true := by decide

/-! ### DISPATCH and telemetry: 95_test_vectors.md section 2.3 -/

theorem test_V9_record :
    render frameV9 = text ['1', '5', '0', '0', ';', '1', '5', '0', '0', ';', '1', '0', '0', '0', ';',
      '2', '0', '0', '0', ';', '0', ';', '-', '1', ';', '\n'] := by decide
theorem test_V10_extremes :
    dec 0x80000000#32 = text ['-', '2', '1', '4', '7', '4', '8', '3', '6', '4', '8'] ∧
    dec 0x7FFFFFFF#32 = text ['2', '1', '4', '7', '4', '8', '3', '6', '4', '7'] := by decide
theorem test_V11_V13_record_lengths :
    (render (List.replicate 6 0#32)).length = 13 ∧ (render frameV13).length = 73 := by decide
theorem test_V9_dispatch :
    nextIs (step (pending frameV9 [])) (fun t => cursors t == (0, 0) && t.frameBuf == frameV9 && !t.srcRead &&
      t.outputs.drop 1 == [.setChannel 0 1500#32, .setChannel 1 1500#32, .setChannel 2 1000#32,
        .setChannel 3 2000#32, .setChannel 4 0#32, .setChannel 5 0xFFFFFFFF#32]) = true := by decide
theorem test_V15_dispatch_leaves_the_byte :
    nextIs (step (pending frameV9 [0x11#8])) (fun t => cursors t == (0, 0) && t.source == [0x11#8] &&
      t.outputs.length == 7) = true := by decide

/-! ### IDLE, HALT, CHECK, RESET: 95_test_vectors.md section 2.4 -/

theorem test_V14_idle : nextIs (step (blockAt 2 3 [])) (fun t => t == blockAt 2 3 []) = true := by decide
theorem test_V16_halt :
    nextIs (step { blockAt 0 0 [0x12#8] with fault := .byteOverrun })
      (fun t => t == { blockAt 0 0 [0x12#8] with fault := .byteOverrun }) = true := by decide
theorem test_V17_check :
    nextIs (step (blockAt 4 0 [0x12#8])) (fun t => cursors t == (4, 0) && t.fault == .byteOverrun &&
      t.outputs == [.faultOut 1#2] && t.source == [0x12#8]) = true := by decide
theorem test_V18_V19_check_cause :
    nextIs (step (blockAt 0 7 [])) (fun t => t.fault == .frameOverrun && t.outputs == [.faultOut 2#2]) = true ∧
    nextIs (step (blockAt 5 7 [])) (fun t => t.fault == .byteOverrun && t.outputs == [.faultOut 1#2]) = true := by decide
theorem test_V21_reset_clears_a_fault :
    nextIs (step (underReset { blockAt 0 7 [] with fault := .frameOverrun })) (fun t => cursors t == (0, 0) &&
      t.fault == .noFault && t.outputs == []) = true := by decide
theorem test_V22_reset_discards_a_complete_frame :
    nextIs (step (underReset (pending frameV9 [0x11#8]))) (fun t => cursors t == (0, 0) && t.outputs == [] &&
      t.source == [0x11#8]) = true := by decide

/-! ### The stimulus runner: 95_test_vectors.md program P8, its first two lines -/

theorem test_P8_first_line :
    ((runLine (.byte 0x12#8) { state := blockAt 4 0 [], unread := [], ops := [] }).map fun r => (r.ops, r.unread))
      = some ([.check, .halt], [0x12#8]) := by decide
/-- R83: `WORD -1000` is four BYTE lines (95_test_vectors.md section 2.1, inverse). -/
theorem test_word_line : expand (.word (-1000)) = [.byte 0x18#8, .byte 0xFC#8, .byte 0xFF#8, .byte 0xFF#8] := by decide

/-! ### Witnesses: for each statement with hypotheses, states and operands that meet them together -/

/-- `s` makes a step of operation `i` that answers. -/
abbrev Steps (s : State) (i : Instr) : Prop := fetch s = .ok i ∧ ∃ t, step s = .next t

/-- All clauses of the choice of the operation, each at a boundary of its range. -/
theorem test_witness_OperationIsChosenByPriority_reset_halt_check :
    (nextDraw (underReset { blockAt 4 7 [0x11#8] with fault := .byteOverrun })).rst = true ∧
    ((nextDraw (blockAt 4 7 [])).rst = false ∧ ({ blockAt 4 7 [] with fault := .frameOverrun } : State).fault ≠ .noFault) ∧
    (let s := blockAt 4 6 [0x11#8]
     (nextDraw s).rst = false ∧ s.fault = .noFault ∧ ¬(s.byteCursor ≤ 3 ∧ s.frameCursor ≤ s.params.channels)) ∧
    (let s := blockAt 3 7 []
     (nextDraw s).rst = false ∧ s.fault = .noFault ∧ ¬(s.byteCursor ≤ 3 ∧ s.frameCursor ≤ s.params.channels)) := by
  decide
theorem test_witness_OperationIsChosenByPriority_dispatch_idle :
    (let s := blockAt 3 6 [0x11#8]
     (nextDraw s).rst = false ∧ s.fault = .noFault ∧ s.byteCursor ≤ 3 ∧ s.frameCursor = s.params.channels) ∧
    (let s := blockAt 3 5 []
     (nextDraw s).rst = false ∧ s.fault = .noFault ∧ s.byteCursor ≤ 3 ∧ s.frameCursor < s.params.channels ∧
       (sample s).source = []) := by decide
theorem test_witness_OperationIsChosenByPriority_push :
    (∀ c, c < 4 → let s := blockAt c 5 [0x11#8]
      (nextDraw s).rst = false ∧ s.fault = .noFault ∧ s.byteCursor ≤ 3 ∧ s.frameCursor < s.params.channels ∧
        (sample s).source = 0x11#8 :: [] ∧ s.byteCursor = c ∧ s.frameCursor + 1 = s.params.channels) ∧
    (let s := blockAt 3 4 [0x11#8]
     s.byteCursor = 3 ∧ s.frameCursor + 1 < s.params.channels ∧ (sample s).source = 0x11#8 :: []) := by decide

theorem test_witness_PushSelectedOnlyWhenHealthyAndOffered :
    fetch (blockAt 3 5 [0x11#8]) = .ok (.pushF 0x11#8) ∧ isPush (.pushF 0x11#8) = true ∧
    (blockAt 3 5 [0x11#8]).Shaped ∧
    nextIs (step (blockAt 3 5 [0x11#8])) (fun t => t.frameCursor == t.params.channels) = true :=
  ⟨rfl, by decide, by decide, by decide⟩

theorem test_witness_PushFirstThreeBytesStoreAndAdvance :
    (blockAt 0 0 [0xDC#8, 0x05#8]).Shaped ∧ (blockAt 0 0 [0xDC#8, 0x05#8]).source = 0xDC#8 :: [0x05#8] := by decide

/-- The last room of a frame that is not the last word, and the last word (N = 6 and N = 1). -/
theorem test_witness_PushWordDecodesAndAppends :
    let s := blockWith 3 4 [0xDC#8, 0x05#8, 0x01#8, 0x02#8] [0x03#8]
    s.Shaped ∧ s.source = 0x03#8 :: [] ∧ s.byteBuf = 0xDC#8 :: 0x05#8 :: 0x01#8 :: 0x02#8 :: [] ∧
    s.frameCursor + 1 < s.params.channels := by decide
theorem test_witness_PushFinalWordCompletesTheFrame :
    (let s := blockWith 3 5 [0xDC#8, 0x05#8, 0x01#8, 0x02#8] [0x03#8]
     s.Shaped ∧ s.source = 0x03#8 :: [] ∧ s.byteBuf = 0xDC#8 :: 0x05#8 :: 0x01#8 :: 0x02#8 :: [] ∧
     s.frameCursor + 1 = s.params.channels ∧ s.fault = .noFault) ∧
    (let s := oneChannel 3 0 [0xDC#8, 0x05#8, 0x01#8, 0x02#8] [0x03#8]
     s.Shaped ∧ s.source = 0x03#8 :: [] ∧ s.byteBuf = 0xDC#8 :: 0x05#8 :: 0x01#8 :: 0x02#8 :: [] ∧
     s.frameCursor + 1 = s.params.channels) ∧
    (oneChannel 3 0 [0x01#8, 0, 0, 0] [0x00#8]).params.channels = 1 := by decide

/-- The first cell of the frame and the last. -/
theorem test_witness_CompletingPushAppendsAtThePresentCursor :
    ∀ c ∈ [0, 5], let s := blockWith 3 c [0xDC#8, 0x05#8, 0x01#8, 0x02#8] [0x03#8]
      s.Shaped ∧ s.source = 0x03#8 :: [] ∧ s.byteBuf = 0xDC#8 :: 0x05#8 :: 0x01#8 :: 0x02#8 :: [] ∧
      s.frameCursor < s.params.channels ∧ s.fault = .noFault := by decide

theorem test_witness_AppendWithoutRoomRaisesFrameOverrun :
    (blockAt 3 6 [0x11#8]).source = 0x11#8 :: [] ∧
    (blockAt 3 6 [0x11#8]).params.channels ≤ (blockAt 3 6 [0x11#8]).frameCursor := by decide

/-- Both sides of the equivalence are met: nothing offered, another byte offered, the byte offered. -/
theorem test_witness_PushRefusedExactlyWithoutTheOfferedByte :
    (Instr.pushW 0x11#8).operand = some 0x11#8 ∧ (blockAt 3 0 []).source.head? ≠ some 0x11#8 ∧
    (blockAt 3 0 [0x12#8]).source.head? ≠ some 0x11#8 ∧ (blockAt 3 0 [0x11#8]).source.head? = some 0x11#8 := by decide

theorem test_witness_PushFrame :
    isPush (.pushW 0x11#8) = true ∧ ∃ t, exec (.pushW 0x11#8) (blockAt 3 0 [0x11#8]) = .next t :=
  ⟨by decide, _, rfl⟩

/-- The contract at a store and at the word that completes a frame. -/
theorem test_witness_PushFamilyIsThePushByteContract :
    ∀ c, c < 4 → let s := blockAt c 5 [0x11#8]
      s.Good ∧ s.Healthy ∧ (nextDraw s).rst = false ∧ s.frameCursor < s.params.channels ∧
        (sample s).source = 0x11#8 :: [] := by decide

theorem test_witness_DecodeIsInvertedByTheSendersBytes :
    wordOf 1#8 2#8 3#8 4#8 = wordOf 1#8 2#8 3#8 4#8 ∧ isInt32 (-2147483648) = true ∧ isInt32 2147483647 = true := by
  decide

theorem test_witness_DispatchEmitsRecordThenCallsInOrder :
    (pending frameV9 []).Shaped ∧ (oneChannel 0 1 [0, 0, 0, 0] []).Shaped := by decide

/-- A step that sends a frame, and a RESET step in the middle of one. -/
theorem test_witness_PartialFramesAreNeverDispatched :
    Steps (pending frameV9 []) .dispatch ∧
    nextIs (step (pending frameV9 [])) (fun t => t.outputs.any Event.isFrameOutput) = true ∧
    Steps (underReset (blockAt 2 4 [])) .reset :=
  ⟨⟨rfl, _, rfl⟩, by decide, ⟨rfl, _, rfl⟩⟩

theorem test_witness_ChannelIndexFitsItsPort :
    let p : Params := { channels := 1, byteBufCap := 4 }
    1 ≤ p.channels ∧ 0 < p.channels ∧ 1 ≤ 1 ∧ p.channels ≤ 2 ^ 1 ∧ 5 < Config.thisHardware.channels ∧
    Config.thisHardware.channels ≤ 2 ^ 3 := by decide

/-- Each row of the table that a healthy good state takes. -/
theorem test_witness_PhaseTransitionsFollowTheTable_without_read :
    (∀ s ∈ [underReset (blockAt 2 4 []), pending frameV9 [], blockAt 2 3 []], s.Good ∧ s.Healthy) ∧
    Steps (underReset (blockAt 2 4 [])) .reset ∧ Steps (pending frameV9 []) .dispatch ∧
    Steps (blockAt 2 3 []) .idle :=
  ⟨by decide, ⟨rfl, _, rfl⟩, ⟨rfl, _, rfl⟩, ⟨rfl, _, rfl⟩⟩
theorem test_witness_PhaseTransitionsFollowTheTable_push :
    (∀ c, c < 4 → (blockAt c 5 [0x11#8]).Good ∧ (blockAt c 5 [0x11#8]).Healthy) ∧
    (blockAt 3 4 [0x11#8]).Good ∧ (blockAt 3 4 [0x11#8]).Healthy ∧
    Steps (blockAt 0 5 [0x11#8]) (.pushB0 0x11#8) ∧ Steps (blockAt 1 5 [0x11#8]) (.pushB1 0x11#8) ∧
    Steps (blockAt 2 5 [0x11#8]) (.pushB2 0x11#8) ∧ Steps (blockAt 3 4 [0x11#8]) (.pushW 0x11#8) ∧
    Steps (blockAt 3 5 [0x11#8]) (.pushF 0x11#8) :=
  ⟨by decide, by decide, by decide, ⟨rfl, _, rfl⟩, ⟨rfl, _, rfl⟩, ⟨rfl, _, rfl⟩, ⟨rfl, _, rfl⟩, ⟨rfl, _, rfl⟩⟩

theorem test_witness_FinalPushThenDispatchIsTheFusedForm :
    (blockAt 3 5 [0x11#8]).Good ∧ fetch (blockAt 3 5 [0x11#8]) = .ok (.pushF 0x11#8) ∧
    ((blockAt 3 5 [0x11#8]).draws.tail.headD .quiet).rst = false :=
  ⟨by decide, rfl, by decide⟩

theorem test_witness_CheckRecordsTheCauseAndNothingElse :
    4 ≤ (blockAt 4 7 []).byteCursor ∧ (blockAt 3 7 []).byteCursor ≤ 3 := by decide

theorem test_witness_NonReadingOperationsFrame :
    ∀ i ∈ [Instr.reset, .halt, .check, .dispatch, .idle], isPush i = false ∧ ∃ t, exec i State.reset = .next t := by
  intro i h
  simp only [List.mem_cons, List.not_mem_nil, or_false] at h
  rcases h with rfl | rfl | rfl | rfl | rfl <;> exact ⟨rfl, _, rfl⟩

theorem test_witness_ReadingPopsTheHeadOnceAndOnlyInPush :
    (Steps (blockAt 3 5 [0x11#8]) (.pushF 0x11#8) ∧ isPush (.pushF 0x11#8) = true) ∧
    (Steps (pending frameV9 [0x11#8]) .dispatch ∧ isPush .dispatch = false) :=
  ⟨⟨⟨rfl, _, rfl⟩, rfl⟩, ⟨⟨rfl, _, rfl⟩, rfl⟩⟩

theorem test_witness_PollingHasNoSideEffect :
    Steps (pending frameV9 [0x11#8]) .dispatch ∧ Steps (underReset (blockAt 2 4 [])) .reset ∧
    Steps { blockAt 0 0 [0x12#8] with fault := .byteOverrun } .halt ∧ Steps (blockAt 4 0 []) .check :=
  ⟨⟨rfl, _, rfl⟩, ⟨rfl, _, rfl⟩, ⟨rfl, _, rfl⟩, ⟨rfl, _, rfl⟩⟩

theorem test_witness_BytesAreNeitherLostNorReordered :
    ∃ t, Sys2Proof.core.run 1 { blockAt 0 0 [0x11#8] with draws := [{ resetDraw with rst := false, arrivals := [0x12#8] }] }
      = .next t := ⟨_, rfl⟩

theorem test_witness_ResetReinitialisesTheBlock :
    1 ≤ (oneChannel 3 0 [0, 0, 0, 0] []).params.channels := by decide

theorem test_witness_ResetEscapesEveryState :
    let s := underReset { blockAt 5 7 [0x11#8] with fault := .byteOverrun }
    s.params.wf = true ∧ (nextDraw s).rst = true := by decide

theorem test_witness_ResetStateHasTheStatedValues :
    Params.wf { channels := 1, byteBufCap := 4 } = true ∧ Config.thisHardware.wf = true := by decide

theorem test_witness_ResetAndDispatchEndBetweenFrames :
    ((underReset (blockAt 2 4 [])).Good ∧ Steps (underReset (blockAt 2 4 [])) .reset) ∧
    ((pending frameV9 []).Good ∧ Steps (pending frameV9 []) .dispatch) :=
  ⟨⟨by decide, rfl, _, rfl⟩, ⟨by decide, rfl, _, rfl⟩⟩

/-- Both causes at their boundaries; then a run from reset of one step. -/
theorem test_witness_BrokenCursorsAreCaughtByCheck :
    (let s := blockAt 4 7 [0x11#8]
     s.fault = .noFault ∧ (nextDraw s).rst = false ∧ 4 ≤ s.byteCursor ∧ fetch s = .ok .check) ∧
    (let s := blockAt 3 7 [0x11#8]
     s.fault = .noFault ∧ (nextDraw s).rst = false ∧ s.byteCursor ≤ 3 ∧ s.params.channels < s.frameCursor) ∧
    Config.thisHardware.wf = true ∧
    (∃ t, Sys2Proof.core.run 1 { State.resetWith Config.thisHardware with source := [0x11#8], draws := [] } = .next t) :=
  ⟨⟨rfl, rfl, by decide, rfl⟩, by decide, by decide, ⟨_, rfl⟩⟩

theorem test_witness_FaultIsStickyAndSilent :
    ({ blockAt 0 0 [0x12#8] with fault := .byteOverrun, draws := [.quiet] } : State).fault ≠ .noFault ∧
    ({ blockAt 0 0 [0x12#8] with fault := .byteOverrun, draws := [.quiet] } : State).NoReset := by decide

/-- A fault taken, and a fault cleared. -/
theorem test_witness_OnlyCheckAndResetWriteTheFaultRegister :
    nextIs (step (blockAt 4 0 [])) (fun t => t.fault != (blockAt 4 0 []).fault) = true ∧
    nextIs (step (underReset { blockAt 0 0 [] with fault := .byteOverrun })) (fun t => t.fault != .byteOverrun)
      = true := by decide

theorem test_witness_EveryStepAnswers :
    (blockAt 4 7 []).Shaped ∧ (oneChannel 0 0 [0, 0, 0, 0] []).Shaped := by decide

theorem test_witness_StepKeepsGood :
    (blockAt 3 5 [0x11#8]).Good ∧ ∃ t, step (blockAt 3 5 [0x11#8]) = .next t := ⟨by decide, _, rfl⟩

theorem test_witness_GoodHealthyStatesNeverFault :
    (pending frameV9 []).Good ∧ (pending frameV9 []).Healthy ∧ ∃ t, step (pending frameV9 []) = .next t :=
  ⟨by decide, by decide, _, rfl⟩

/-- Two states that differ in every stale cell of a half-read frame; and a step that is not RESET. -/
theorem test_witness_StaleCellsAreNeverRead :
    let s := { blockAt 2 1 [0x11#8] with byteBuf := [1, 2, 3, 4], frameBuf := [1, 2, 3, 4, 5, 6] }
    let s' := { s with byteBuf := [1, 2, 0xFF#8, 0xFE#8], frameBuf := [1, 9, 9, 9, 9, 9] }
    State.SameButStale s s' ∧ (∃ t, Sys2Proof.core.run 1 s = .next t) ∧ (∃ t, step s = .next t) ∧
      fetch s ≠ .ok .reset :=
  ⟨⟨rfl, by decide, rfl, rfl, by decide, rfl, rfl, rfl, rfl, rfl, rfl, rfl, rfl⟩, ⟨_, rfl⟩, ⟨_, rfl⟩, by
    rw [show fetch _ = .ok (.pushB2 0x11#8) from rfl]; simp⟩

/-- A state that has read five bytes: one word and one byte of the next. -/
theorem test_witness_BuffersHoldTheBytesOfTheOpenFrame :
    let s := { blockAt 1 1 [0x11#8] with
      byteBuf := [9, 2, 3, 4], frameBuf := [0x04030201#32, 0, 0, 0, 0, 0]
      outputs := [.srcRead 1, .srcRead 2, .srcRead 3, .srcRead 4, .srcRead 9] }
    s.Good ∧ s.HoldsOpenBytes ∧ ∃ t, step s = .next t :=
  ⟨by decide, ⟨by decide, by decide, by decide⟩, _, rfl⟩

theorem test_witness_DispatchedFrameIsTheLastBytesRead :
    let s := { oneChannel 0 1 [1, 2, 3, 4] [] with
      frameBuf := [0x04030201#32], outputs := [.srcRead 1, .srcRead 2, .srcRead 3, .srcRead 4] }
    s.Good ∧ s.HoldsOpenBytes ∧ fetch s = .ok .dispatch :=
  ⟨by decide, ⟨by decide, by decide, by decide⟩, rfl⟩

/-- Both clauses: inside a frame after one step, and at a complete frame after four steps with one channel. -/
theorem test_witness_StreamPositionDecidesCursorsAndFrames :
    let s := oneChannel 0 0 [0, 0, 0, 0] [1, 2, 3, 4]
    s.AtFrameStart ∧ s.NoReset ∧ nextIs (Sys2Proof.core.run 1 s) (fun t => t.frameCursor < t.params.channels) = true ∧
    nextIs (Sys2Proof.core.run 4 s) (fun t => t.frameCursor == t.params.channels) = true := by decide

theorem test_witness_FrameOfBytesIsDispatched :
    let s := blockAt 0 0 (frameV9.flatMap bytesOf ++ [0x11#8])
    s.AtFrameStart ∧ s.NoReset ∧ frameV9.length = s.params.channels ∧
    s.source = frameV9.flatMap bytesOf ++ [0x11#8] := by decide

theorem test_witness_StepRunsTheSelectedOperation :
    let s := { blockAt 0 0 [] with draws := [{ resetDraw with rst := false, arrivals := [0x12#8] }] }
    let d := s.draws.headD .quiet
    let q := { s with source := s.source ++ d.arrivals, draws := s.draws.tail }
    decode (selector d.rst d.floatData q) = .ok (.pushB0 0x12#8) := rfl

theorem test_witness_DecodeOfEncodeIsIdentity : (Instr.pushF 0xFF#8).wf = true ∧ Instr.reset.wf = true := by decide

/-- A pending frame, a broken byte cursor, a faulted block: the three clauses of the runner. -/
theorem test_witness_RunnerLinesWaitForDispatchAndCheck :
    ((pending frameV9 []).Shaped ∧ (pending frameV9 []).Good ∧ (pending frameV9 []).Healthy ∧
      (pending frameV9 []).frameCursor = (pending frameV9 []).params.channels) ∧
    ((blockAt 4 0 []).Shaped ∧ (blockAt 4 0 []).Healthy ∧ 4 ≤ (blockAt 4 0 []).byteCursor) ∧
    (({ blockAt 0 0 [] with fault := .byteOverrun } : State).Shaped ∧
      ¬({ blockAt 0 0 [] with fault := .byteOverrun } : State).Healthy) := by decide

end Sys2Proof.Tests
end

section
/-! SUPPORT. The operation a step selects, as a function of the selector's fields (R78, R79). -/

namespace Sys2Proof.Machine

/-- The upper byte of a selector with the fields of R78: `rst`, faulted, broken invariant, `disp`, `src_avail`, the low
bits of the byte cursor, `last`. -/
def packHigh (rst flt bad dsp avl : Bool) (c : BitVec 2) (lst : Bool) : BitVec 8 :=
  BitVec.ofBool rst ++ BitVec.ofBool flt ++ BitVec.ofBool bad ++ BitVec.ofBool dsp ++ BitVec.ofBool avl ++ c ++
    BitVec.ofBool lst

/-- The PUSH of a byte cursor below 4. -/
def pushAt (c : Nat) (lst : Bool) (b : Byte) : Instr :=
  match c with
  | 0 => .pushB0 b
  | 1 => .pushB1 b
  | 2 => .pushB2 b
  | _ => if lst then .pushF b else .pushW b

/-- The operation of R79 by priority, from the fields of the selector. -/
def chosen (rst flt bad dsp avl : Bool) (c : Nat) (lst : Bool) (b : Byte) : Instr :=
  if rst then .reset
  else if flt then .halt
  else if bad then .check
  else if dsp then .dispatch
  else if avl then pushAt c lst b
  else .idle

/-- The operation map is the priority choice: R79's table read at each of its 256 upper bytes. -/
theorem decodeHigh_packHigh (rst flt bad dsp avl : Bool) (c : BitVec 2) (lst : Bool) (b : Byte) :
    decodeHigh (packHigh rst flt bad dsp avl c lst) b = .ok (chosen rst flt bad dsp avl c.toNat lst b) := by
  have hc : c = 0#2 ∨ c = 1#2 ∨ c = 2#2 ∨ c = 3#2 := by revert c; decide
  rcases hc with rfl | rfl | rfl | rfl <;> cases rst <;> cases flt <;> cases bad <;> cases dsp <;> cases avl <;>
    cases lst <;> rfl

theorem selector_eq_joinBytes (rst : Bool) (f : Byte) (s : State) :
    selector rst f s =
      joinBytes (packHigh rst (faulted s) (!inv s) (disp s) (srcAvail s) (BitVec.ofNat 2 s.byteCursor) (last s))
        (srcData s f) := rfl

/-- Every selector of a state decodes, to the operation its fields choose. -/
theorem decode_selector (rst : Bool) (f : Byte) (s : State) :
    decode (selector rst f s) =
      .ok (chosen rst (faulted s) (!inv s) (disp s) (srcAvail s) (s.byteCursor % 4) (last s) (srcData s f)) := by
  rw [selector_eq_joinBytes, decode_joinBytes, decodeHigh_packHigh, BitVec.toNat_ofNat]

/-- The operation of the coming step, by priority. -/
theorem fetch_eq_chosen (s : State) :
    fetch s =
      .ok (chosen (nextDraw s).rst (faulted s) (!inv s) (disp s) (srcAvail (sample s)) (s.byteCursor % 4) (last s)
        (srcData (sample s) (nextDraw s).floatData)) :=
  decode_selector _ _ (sample s)

/-- A PUSH stores at the cursor that selects it. -/
theorem writtenCell_pushAt {c : Nat} (hc : c < 4) (lst : Bool) (b : Byte) : writtenCell (pushAt c lst b) = some c := by
  match c, hc with
  | 0, _ => rfl
  | 1, _ => rfl
  | 2, _ => rfl
  | 3, _ => cases lst <;> rfl

/-- An operation that writes a byte cell is selected only with an intact invariant, and is the PUSH of the cursor. -/
theorem chosen_writes {rst flt bad dsp avl lst : Bool} {c k : Nat} {b : Byte}
    (h : writtenCell (chosen rst flt bad dsp avl c lst b) = some k) :
    bad = false ∧ chosen rst flt bad dsp avl c lst b = pushAt c lst b := by
  unfold chosen at h ⊢
  split_ifs at h ⊢ <;> simp_all [writtenCell]

/-- The byte cell a fetched operation writes is the cell at the byte cursor (R101 to R105). -/
theorem byteCursor_of_fetch_writes {s : State} {i : Instr} {k : Nat} (hf : fetch s = .ok i)
    (hk : writtenCell i = some k) : s.byteCursor = k := by
  rw [fetch_eq_chosen, Except.ok.injEq] at hf
  subst hf
  obtain ⟨hinv, hpush⟩ := chosen_writes hk
  rw [hpush, writtenCell_pushAt (Nat.mod_lt _ (by decide)), Option.some.injEq] at hk
  have hle : s.byteCursor ≤ 3 := by simp [inv] at hinv; exact hinv.1
  omega

/-- DISPATCH is fetched only for a complete frame (R141). -/
theorem frameCursor_of_fetch_dispatch {s : State} (hf : fetch s = .ok .dispatch) :
    s.frameCursor = s.params.channels := by
  rw [fetch_eq_chosen, Except.ok.injEq] at hf
  have hpush : ∀ c lst b, pushAt c lst b ≠ .dispatch := by
    intro c lst b
    rcases c with _ | _ | _ | _ <;> cases lst <;> simp [pushAt]
  unfold chosen at hf
  split_ifs at hf with _ _ _ hdisp
  · simpa [disp] using hdisp
  · exact absurd hf (hpush _ _ _)

/-- Choosing the operation reads no buffer: states that agree on the fields of the selector fetch alike (R26, R78). -/
theorem fetch_congr {s t : State} (hparams : t.params = s.params) (hbyte : t.byteCursor = s.byteCursor)
    (hframe : t.frameCursor = s.frameCursor) (hfault : t.fault = s.fault) (hsource : t.source = s.source)
    (hdraws : t.draws = s.draws) : fetch t = fetch s := by
  simp only [fetch_eq_chosen, faulted, inv, disp, last, srcAvail, srcData, sample_source, nextDraw, hparams, hbyte,
    hframe, hfault, hsource, hdraws]

theorem phase_eq_dispatching_iff {s : State} : phase s = some .dispatching ↔ s.frameCursor = s.params.channels := by
  unfold phase
  split_ifs with hlt heq
  · simp only [Option.some.injEq, reduceCtorEq, false_iff]; omega
  · simp [heq]
  · simp [heq]

/-- Settles O31: the fetched operation is a function of the selector's fields, the phase of the frame cursor. -/
theorem noBufferCellDecidesATransition : Obligations.NoBufferCellDecidesATransition := by
  intro s bs ws
  exact ⟨fetch_congr rfl rfl rfl rfl rfl rfl, rfl, phase_eq_dispatching_iff⟩

end Sys2Proof.Machine
end

section
/-! SUPPORT. Differing in stale cells alone (R29) is kept by each update of the state that both states make. -/

namespace Sys2Proof.Machine.State.SameButStale

variable {s s' : State}

theorem setByteCell (h : SameButStale s s') (k : Nat) (b : Byte) :
    SameButStale (s.setByteCell k b) (s'.setByteCell k b) :=
  { h with
    byteCells := fun j hj => by simp [List.getElem?_set, h.byteLength, h.byteCells j hj]
    byteLength := by simp [h.byteLength] }

/-- The byte cursor may move to where the cells below it agree. -/
theorem setByteCursor (h : SameButStale s s') {c : Nat} (hc : ∀ k, k < c → s'.byteBuf[k]? = s.byteBuf[k]?) :
    SameButStale (s.setByteCursor c) (s'.setByteCursor c) :=
  { h with byteCells := hc, byteCursor := rfl }

theorem setFrameCell (h : SameButStale s s') (i : Nat) (w : Word) :
    SameButStale (s.setFrameCell i w) (s'.setFrameCell i w) :=
  { h with
    frameCells := fun j hj => by simp [List.getElem?_set, h.frameLength, h.frameCells j hj]
    frameLength := by simp [h.frameLength] }

/-- The frame cursor may move to where the cells below it agree. -/
theorem setFrameCursor (h : SameButStale s s') {c : Nat} (hc : ∀ i, i < c → s'.frameBuf[i]? = s.frameBuf[i]?) :
    SameButStale (s.setFrameCursor c) (s'.setFrameCursor c) :=
  { h with frameCells := hc, frameCursor := rfl }

theorem setFault (h : SameButStale s s') (c : FaultCode) : SameButStale (s.setFault c) (s'.setFault c) :=
  { h with fault := rfl }

theorem setSrcRead (h : SameButStale s s') (r : Bool) : SameButStale (s.setSrcRead r) (s'.setSrcRead r) :=
  { h with srcRead := rfl }

theorem setSource (h : SameButStale s s') (bs : List Byte) : SameButStale (s.setSource bs) (s'.setSource bs) :=
  { h with source := rfl }

theorem setDraws (h : SameButStale s s') (ds : List Draw) : SameButStale (s.setDraws ds) (s'.setDraws ds) :=
  { h with draws := rfl }

theorem emit (h : SameButStale s s') (es : List Event) : SameButStale (s.emit es) (s'.emit es) :=
  { h with outputs := congrArg (· ++ es) h.outputs }

/-- The contents RESET draws depend on the parameters and the draw counter, not on what the cells held. -/
theorem forgetBuffers (h : SameButStale s s') : SameButStale s.forgetBuffers s'.forgetBuffers :=
  { h with
    byteCells := fun k _ => by simp [h.params, h.unspecDraws]
    byteLength := by simp [h.params]
    frameCells := fun i _ => by simp [h.params, h.unspecDraws]
    frameLength := by simp [h.params]
    unspecDraws := congrArg (· + 1) h.unspecDraws }

/-- Storing at the byte cursor makes that cell live, and alike in both states. -/
theorem storeAtCursor (h : SameButStale s s') (b : Byte) :
    SameButStale ((s.setByteCell s.byteCursor b).setByteCursor (s.byteCursor + 1))
      ((s'.setByteCell s.byteCursor b).setByteCursor (s.byteCursor + 1)) := by
  refine (h.setByteCell _ b).setByteCursor fun k hk => ?_
  rcases Nat.lt_succ_iff_lt_or_eq.1 hk with hlt | rfl
  · exact (h.setByteCell _ b).byteCells k hlt
  · simp [List.getElem?_set, h.byteLength]

/-- Appending at the frame cursor makes that cell live, and alike in both states. -/
theorem appendAtCursor (h : SameButStale s s') (w : Word) :
    SameButStale ((s.setFrameCell s.frameCursor w).setFrameCursor (s.frameCursor + 1))
      ((s'.setFrameCell s.frameCursor w).setFrameCursor (s.frameCursor + 1)) := by
  refine (h.setFrameCell _ w).setFrameCursor fun i hi => ?_
  rcases Nat.lt_succ_iff_lt_or_eq.1 hi with hlt | rfl
  · exact (h.setFrameCell _ w).frameCells i hlt
  · simp [List.getElem?_set, h.frameLength]

theorem afterRead (h : SameButStale s s') (b : Byte) (rest : List Byte) :
    SameButStale (afterRead b rest s) (afterRead b rest s') :=
  ((h.setSource rest).setSrcRead true).emit [.srcRead b]

theorem raiseFault (h : SameButStale s s') (c : FaultCode) : SameButStale (raiseFault c s) (raiseFault c s') :=
  ((h.setFault c).setSrcRead false).emit [.faultOut c.code]

theorem clearBlock (h : SameButStale s s') : SameButStale (clearBlock s) (clearBlock s') :=
  (((h.forgetBuffers.setByteCursor (by simp)).setFrameCursor (by simp)).setFault .noFault).setSrcRead false

theorem sample (h : SameButStale s s') : SameButStale (sample s) (sample s') := by
  have hdraw : nextDraw s' = nextDraw s := by simp [nextDraw, h.draws]
  unfold Machine.sample
  rw [hdraw, h.source, h.draws]
  exact (h.setSource _).setDraws _

theorem fetch_eq (h : SameButStale s s') : fetch s' = fetch s :=
  fetch_congr h.params h.byteCursor h.frameCursor h.fault h.source h.draws

/-- With three bytes of a group read, the word that `b` completes is the same. -/
theorem groupWord_eq (h : SameButStale s s') (hcur : s.byteCursor = 3) (b : Byte) :
    groupWord b s' = groupWord b s := by
  have hcell : ∀ k, k < 3 → s'.byteBuf[k]? = s.byteBuf[k]? := fun k hk => h.byteCells k (hcur ▸ hk)
  simp only [groupWord, hcell 0 (by decide), hcell 1 (by decide), hcell 2 (by decide)]

/-- With the frame complete, its cells are the same. -/
theorem take_frameBuf_eq (h : SameButStale s s') (hfull : s.frameCursor = s.params.channels) :
    s'.frameBuf.take s.params.channels = s.frameBuf.take s.params.channels := by
  apply List.ext_getElem?
  intro i
  rw [List.getElem?_take, List.getElem?_take]
  split
  · exact h.frameCells i (by omega)
  · rfl

end Sys2Proof.Machine.State.SameButStale
end

section
/-! CLAIM. Stale cells are never read (R29): each operation, run where it is selected, respects stale-cell equality. -/

namespace Sys2Proof.Machine

variable {s s' t : State} {b : Byte} {i : Instr}

/-- Run at the byte cursor, the first three PUSH operations respect stale cells (R101 to R103). -/
theorem pushByte_respects_stale (h : State.SameButStale s s') (he : pushByte s.byteCursor b s = .next t) :
    ∃ t', pushByte s.byteCursor b s' = .next t' ∧ State.SameButStale t t' := by
  obtain ⟨rest, hsrc, hlen, rfl⟩ := pushByte_next.1 he
  exact ⟨_, pushByte_next.2 ⟨rest, h.source ▸ hsrc, h.byteLength ▸ hlen, rfl⟩, (h.afterRead b rest).storeAtCursor b⟩

theorem completeWord_respects_stale (h : State.SameButStale s s') (hcur : s.byteCursor = 3)
    (he : completeWord b s = some t) : ∃ t', completeWord b s' = some t' ∧ State.SameButStale t t' := by
  obtain ⟨hbyte, hframe, w, hw, rfl⟩ := completeWord_eq_some.1 he
  have hstored : State.SameButStale ((s.setByteCell 3 b).setByteCursor 0) ((s'.setByteCell 3 b).setByteCursor 0) :=
    (h.setByteCell 3 b).setByteCursor (by simp)
  refine ⟨_, completeWord_eq_some.2 ⟨h.byteLength ▸ hbyte, ?_, w, (h.groupWord_eq hcur b).trans hw, rfl⟩, ?_⟩
  · rw [h.frameCursor, h.frameLength]
    exact hframe
  · rw [h.frameCursor]
    exact hstored.appendAtCursor w

/-- With three bytes read, the completing PUSH operations respect stale cells (R104, R105). -/
theorem pushWord_respects_stale (h : State.SameButStale s s') (hcur : s.byteCursor = 3)
    (he : pushWord b s = .next t) : ∃ t', pushWord b s' = .next t' ∧ State.SameButStale t t' := by
  obtain ⟨rest, hsrc, ⟨hroom, hword⟩ | ⟨hfull, rfl⟩⟩ := pushWord_next.1 he
  · obtain ⟨t', hword', hsame⟩ := completeWord_respects_stale (h.afterRead b rest) hcur hword
    have hroom' : s'.frameCursor < s'.params.channels := by rw [h.frameCursor, h.params]; exact hroom
    exact ⟨t', pushWord_next.2 ⟨rest, h.source ▸ hsrc, .inl ⟨hroom', hword'⟩⟩, hsame⟩
  · have hfull' : s'.params.channels ≤ s'.frameCursor := by rw [h.frameCursor, h.params]; exact hfull
    exact ⟨_, pushWord_next.2 ⟨rest, h.source ▸ hsrc, .inr ⟨hfull', rfl⟩⟩, h.raiseFault _⟩

/-- With the frame complete, DISPATCH respects stale cells (R142). -/
theorem execDispatch_respects_stale (h : State.SameButStale s s') (hfull : s.frameCursor = s.params.channels)
    (he : execDispatch s = .next t) : ∃ t', execDispatch s' = .next t' ∧ State.SameButStale t t' := by
  obtain ⟨hlen, rfl⟩ := execDispatch_next.1 he
  refine ⟨_, execDispatch_next.2 ⟨by rw [h.params, h.frameLength]; exact hlen, rfl⟩, ?_⟩
  rw [h.params, h.take_frameBuf_eq hfull]
  exact ((h.emit _).setFrameCursor (by simp)).setSrcRead false

theorem execCheck_respects_stale (h : State.SameButStale s s') (he : execCheck s = .next t) :
    ∃ t', execCheck s' = .next t' ∧ State.SameButStale t t' := by
  cases he
  have hcause : overrunCause s' = overrunCause s := by simp [overrunCause, h.byteCursor]
  exact ⟨_, rfl, hcause ▸ h.raiseFault _⟩

/-- An operation that writes the byte cell at the cursor, and dispatches only a complete frame, respects stale cells:
what `fetch` selects is such an operation. -/
theorem exec_respects_stale (h : State.SameButStale s s') (hwrites : ∀ k, writtenCell i = some k → s.byteCursor = k)
    (hfull : i = .dispatch → s.frameCursor = s.params.channels) (he : exec i s = .next t) :
    ∃ t', exec i s' = .next t' ∧ State.SameButStale t t' := by
  have hpush : ∀ k b, s.byteCursor = k → pushByte k b s = .next t →
      ∃ t', pushByte k b s' = .next t' ∧ State.SameButStale t t' := by
    rintro k b rfl hk
    exact pushByte_respects_stale h hk
  cases i with
  | reset =>
    cases he
    exact ⟨_, rfl, h.clearBlock⟩
  | halt =>
    cases he
    exact ⟨_, rfl, h.setSrcRead false⟩
  | check => exact execCheck_respects_stale h he
  | dispatch => exact execDispatch_respects_stale h (hfull rfl) he
  | idle =>
    cases he
    exact ⟨_, rfl, h.setSrcRead false⟩
  | pushB0 b => exact hpush 0 b (hwrites 0 rfl) he
  | pushB1 b => exact hpush 1 b (hwrites 1 rfl) he
  | pushB2 b => exact hpush 2 b (hwrites 2 rfl) he
  | pushW b => exact pushWord_respects_stale h (hwrites 3 rfl) he
  | pushF b => exact pushWord_respects_stale h (hwrites 3 rfl) he

theorem step_respects_stale (h : State.SameButStale s s') (hs : step s = .next t) :
    ∃ t', step s' = .next t' ∧ State.SameButStale t t' := by
  obtain ⟨i, hf, he⟩ := step_next_iff.1 hs
  have hwrites : ∀ k, writtenCell i = some k → (sample s).byteCursor = k := fun _ hk =>
    byteCursor_of_fetch_writes (s := s) hf hk
  have hfull : i = .dispatch → (sample s).frameCursor = (sample s).params.channels := fun hi =>
    frameCursor_of_fetch_dispatch (s := s) (hi ▸ hf)
  obtain ⟨t', he', hsame⟩ := exec_respects_stale h.sample hwrites hfull he
  exact ⟨t', step_next_iff.2 ⟨i, h.fetch_eq.trans hf, he'⟩, hsame⟩

theorem run_respects_stale (k : Nat) : ∀ {s s' t : State}, State.SameButStale s s' →
    Sys2Proof.core.run k s = .next t → ∃ t' : State, Sys2Proof.core.run k s' = .next t' ∧ State.SameButStale t t' := by
  induction k with
  | zero =>
    rintro s s' t h ⟨⟩
    exact ⟨s', rfl, h⟩
  | succ k ih =>
    intro s s' t h hrun
    obtain ⟨u, hstep, hrest⟩ := run_succ_next_iff.1 hrun
    obtain ⟨u', hstep', hu⟩ := step_respects_stale h hstep
    obtain ⟨t', hrest', ht⟩ := ih hu hrest
    exact ⟨t', run_succ_next_iff.2 ⟨u', hstep', hrest'⟩, ht⟩

/-! ### Cells that are not written -/

/-- `t` holds what `s` held in every byte cell but `k` (in every one if `k` is none) and in every frame cell but the one
at the frame cursor of `s`. -/
def KeepsCellsBut (k : Option Nat) (s t : State) : Prop :=
  (∀ j, k ≠ some j → t.byteBuf[j]? = s.byteBuf[j]?) ∧ (∀ i, i ≠ s.frameCursor → t.frameBuf[i]? = s.frameBuf[i]?)

theorem keepsCellsBut_of_buffers_eq {k : Option Nat} (hbyte : t.byteBuf = s.byteBuf) (hframe : t.frameBuf = s.frameBuf) :
    KeepsCellsBut k s t := by
  simp [KeepsCellsBut, hbyte, hframe]

theorem pushByte_keeps_cells {k : Nat} (he : pushByte k b s = .next t) : KeepsCellsBut (some k) s t := by
  obtain ⟨rest, -, -, rfl⟩ := pushByte_next.1 he
  refine ⟨fun j hj => ?_, fun _ _ => rfl⟩
  exact List.getElem?_set_ne (fun h => hj (congrArg some h))

theorem pushWord_keeps_cells (he : pushWord b s = .next t) : KeepsCellsBut (some 3) s t := by
  obtain ⟨rest, -, ⟨-, hword⟩ | ⟨-, rfl⟩⟩ := pushWord_next.1 he
  · obtain ⟨-, -, w, -, rfl⟩ := completeWord_eq_some.1 hword
    exact ⟨fun j hj => List.getElem?_set_ne (fun h => hj (congrArg some h)),
      fun i hi => List.getElem?_set_ne (Ne.symm hi)⟩
  · exact keepsCellsBut_of_buffers_eq rfl rfl

/-- Every operation but RESET changes at most its own byte cell and the frame cell at the frame cursor. -/
theorem exec_keeps_cells (hi : i ≠ .reset) (he : exec i s = .next t) : KeepsCellsBut (writtenCell i) s t := by
  cases i with
  | reset => exact absurd rfl hi
  | halt =>
    cases he
    exact keepsCellsBut_of_buffers_eq rfl rfl
  | check =>
    cases he
    exact keepsCellsBut_of_buffers_eq rfl rfl
  | dispatch =>
    obtain ⟨-, rfl⟩ := execDispatch_next.1 he
    exact keepsCellsBut_of_buffers_eq rfl rfl
  | idle =>
    cases he
    exact keepsCellsBut_of_buffers_eq rfl rfl
  | pushB0 b => exact pushByte_keeps_cells he
  | pushB1 b => exact pushByte_keeps_cells he
  | pushB2 b => exact pushByte_keeps_cells he
  | pushW b => exact pushWord_keeps_cells he
  | pushF b => exact pushWord_keeps_cells he

/-- A step that is not RESET changes at most the cells at the two cursors. -/
theorem step_keeps_cells_off_cursors (hs : step s = .next t) (hreset : fetch s ≠ .ok .reset) :
    KeepsCellsBut (some s.byteCursor) s t := by
  obtain ⟨i, hf, he⟩ := step_next_iff.1 hs
  have hi : i ≠ .reset := by
    rintro rfl
    exact hreset hf
  obtain ⟨hbyte, hframe⟩ := exec_keeps_cells hi he
  exact ⟨fun j hj => hbyte j fun hw => hj (congrArg some (byteCursor_of_fetch_writes hf hw)), hframe⟩

/-- Settles O44: by induction on the steps, each of which reads live cells alone; a step writes at the cursors. -/
theorem staleCellsAreNeverRead : Obligations.StaleCellsAreNeverRead := by
  refine ⟨fun k s s' t h hrun => run_respects_stale k h hrun, fun s t hs hreset => ?_⟩
  obtain ⟨hbyte, hframe⟩ := step_keeps_cells_off_cursors hs hreset
  exact ⟨fun k hk => hbyte k fun h => hk (Option.some.inj h).symm, hframe⟩

end Sys2Proof.Machine
end

section
/-! CLAIM. The word of a byte group (R52): the first byte to arrive is the least significant. -/

namespace Sys2Proof.Machine

/-- The word of a group is its unsigned bytes at weights `2^0`, `2^8`, `2^16`, `2^24`; the sum does not wrap (R120). -/
theorem wordOf_toNat (b0 b1 b2 b3 : Byte) :
    (wordOf b0 b1 b2 b3).toNat = b0.toNat + b1.toNat * 2 ^ 8 + b2.toNat * 2 ^ 16 + b3.toNat * 2 ^ 24 := by
  simp only [wordOf, BitVec.toNat_add, BitVec.toNat_shiftLeft, BitVec.toNat_setWidth, Nat.shiftLeft_eq]
  omega

/-- Settles O16: each byte is the quotient of the word's value by the byte's weight, modulo 256. -/
theorem arrivalOrderIsLittleEndian : Obligations.ArrivalOrderIsLittleEndian := by
  intro b0 b1 b2 b3
  have hb0 := b0.isLt
  have hb1 := b1.isLt
  have hb2 := b2.isLt
  refine ⟨?_, ?_, ?_, ?_⟩ <;> apply BitVec.eq_of_toNat_eq <;>
    rw [BitVec.extractLsb'_toNat, wordOf_toNat, Nat.shiftRight_eq_div_pow] <;> omega

end Sys2Proof.Machine
end

section
/-! CLAIM. Who reads the source (R57): a PUSH takes the head byte, every other operation leaves the source alone. -/

namespace Sys2Proof.Machine

variable {s t : State} {b : Byte} {i : Instr} {k : Nat}

/-- From `s` to `t` byte `b` alone is taken from the head of the source, announced by `src_read` and one `SrcRead`. -/
structure ReadsHead (b : Byte) (s t : State) : Prop where
  source : s.source = b :: t.source
  outputs : t.outputs = s.outputs ++ [.srcRead b]
  srcRead : t.srcRead = true

/-- From `s` to `t` the source is untouched, `src_read` is low and no event is a read. -/
structure ReadsNothing (s t : State) : Prop where
  source : t.source = s.source
  srcRead : t.srcRead = false
  outputs : ∃ evs, t.outputs = s.outputs ++ evs ∧ bytesRead evs = []

/-- A PUSH is selected only by accumulating fields with a byte available, and is the PUSH of the cursor (R79, R100). -/
theorem isPush_chosen {rst flt bad dsp avl lst : Bool} {c : Nat} (h : isPush (chosen rst flt bad dsp avl c lst b) = true) :
    rst = false ∧ flt = false ∧ bad = false ∧ dsp = false ∧ avl = true ∧
      chosen rst flt bad dsp avl c lst b = pushAt c lst b := by
  unfold chosen at h ⊢
  split_ifs at h ⊢ <;> simp_all [isPush]

/-- A PUSH is fetched only while the frame has room and the source a byte (R100). -/
theorem room_and_srcAvail_of_fetch_push (hf : fetch s = .ok i) (hi : isPush i = true) :
    s.frameCursor < s.params.channels ∧ srcAvail (sample s) = true := by
  rw [fetch_eq_chosen, Except.ok.injEq] at hf
  subst hf
  obtain ⟨-, -, hinv, hdisp, havail, -⟩ := isPush_chosen hi
  have hle : s.frameCursor ≤ s.params.channels := by simp [inv] at hinv; exact hinv.2
  have hne : s.frameCursor ≠ s.params.channels := by simpa [disp] using hdisp
  exact ⟨by omega, havail⟩

theorem pushByte_readsHead (he : pushByte k b s = .next t) : ReadsHead b s t := by
  obtain ⟨rest, hsrc, -, rfl⟩ := pushByte_next.1 he
  exact ⟨hsrc, rfl, rfl⟩

/-- With room in the frame, a completing PUSH reads; without, APPEND's fault drops the read (log 9). -/
theorem pushWord_readsHead (hroom : s.frameCursor < s.params.channels) (he : pushWord b s = .next t) :
    ReadsHead b s t := by
  obtain ⟨rest, hsrc, ⟨-, hword⟩ | ⟨hfull, -⟩⟩ := pushWord_next.1 he
  · obtain ⟨-, -, w, -, rfl⟩ := completeWord_eq_some.1 hword
    exact ⟨hsrc, rfl, rfl⟩
  · exact absurd hroom (Nat.not_lt.2 hfull)

/-- Run while the frame has room, every PUSH reads its operand from the head of the source. -/
theorem exec_push_readsHead (hi : isPush i = true) (hroom : s.frameCursor < s.params.channels)
    (he : exec i s = .next t) : ∃ b, i.operand = some b ∧ ReadsHead b s t := by
  cases i with
  | reset | halt | check | dispatch | idle => cases hi
  | pushB0 b | pushB1 b | pushB2 b => exact ⟨b, rfl, pushByte_readsHead he⟩
  | pushW b | pushF b => exact ⟨b, rfl, pushWord_readsHead hroom he⟩

@[simp] theorem bytesRead_channelCalls (ws : List Word) : ∀ j, bytesRead (channelCalls j ws) = [] := by
  induction ws with
  | nil => exact fun _ => rfl
  | cons w ws ih => exact fun j => ih (j + 1)

/-- A dispatch sends a record and channel calls, no read (R142, R145). -/
@[simp] theorem bytesRead_dispatchEvents (ws : List Word) : bytesRead (dispatchEvents ws) = [] :=
  bytesRead_channelCalls ws 0

theorem setSrcRead_readsNothing (s : State) : ReadsNothing s (s.setSrcRead false) :=
  ⟨rfl, rfl, [], by simp, rfl⟩

/-- No operation but a PUSH touches the source or announces a read. -/
theorem exec_readsNothing (hi : isPush i = false) (he : exec i s = .next t) : ReadsNothing s t := by
  cases i with
  | reset =>
    cases he
    exact ⟨rfl, rfl, [], (List.append_nil _).symm, rfl⟩
  | halt | idle =>
    cases he
    exact setSrcRead_readsNothing s
  | check =>
    cases he
    exact ⟨rfl, rfl, _, rfl, rfl⟩
  | dispatch =>
    obtain ⟨-, rfl⟩ := execDispatch_next.1 he
    exact ⟨rfl, rfl, _, rfl, bytesRead_dispatchEvents _⟩
  | pushB0 | pushB1 | pushB2 | pushW | pushF => cases hi

/-- Settles O29: a fetched PUSH has room in the frame, so that APPEND's fault cannot drop its read. -/
theorem readingPopsTheHeadOnceAndOnlyInPush : Obligations.ReadingPopsTheHeadOnceAndOnlyInPush := by
  intro s t i hf hs
  have he : exec i (sample s) = .next t := step_of_fetch hf ▸ hs
  constructor
  · intro hi
    obtain ⟨hroom, havail⟩ := room_and_srcAvail_of_fetch_push hf hi
    obtain ⟨b, hb, hread⟩ := exec_push_readsHead (s := sample s) hi hroom he
    exact ⟨b, hb, havail, hread.source, hread.outputs, hread.srcRead⟩
  · intro hi
    have hnone := exec_readsNothing hi he
    exact ⟨hnone.source, hnone.srcRead, hnone.outputs⟩

end Sys2Proof.Machine
end

section
/-! CLAIM. Polling has no side effect (R58): DISPATCH, RESET, HALT and CHECK do not depend on what the source offers. -/

namespace Sys2Proof.Machine

variable {s t : State} {i : Instr}

/-- `s` with another environment at its source: it holds `src`, the coming step brings `arr`, `src_data` floats at `f`. -/
def resupply (src arr : List Byte) (f : Byte) (s : State) : State :=
  { s with source := src, draws := { nextDraw s with arrivals := arr, floatData := f } :: s.draws.tail }

theorem sample_resupply (src arr : List Byte) (f : Byte) (s : State) :
    sample (resupply src arr f s) = (sample s).setSource (src ++ arr) := rfl

@[simp] theorem isPush_pushAt (c : Nat) (lst : Bool) (b : Byte) : isPush (pushAt c lst b) = true := by
  rcases c with _ | _ | _ | _ <;> cases lst <;> rfl

/-- Above IDLE and the PUSH operations, the priority choice reads neither `src_avail` nor `src_data` (R79). -/
theorem chosen_ignores_source {rst flt bad dsp avl lst : Bool} {c : Nat} {b : Byte}
    (hpush : isPush (chosen rst flt bad dsp avl c lst b) = false) (hidle : chosen rst flt bad dsp avl c lst b ≠ .idle)
    (avl' : Bool) (b' : Byte) :
    chosen rst flt bad dsp avl' c lst b' = chosen rst flt bad dsp avl c lst b := by
  unfold chosen at hpush hidle ⊢
  split_ifs at hpush hidle ⊢ <;> simp_all

theorem fetch_resupply (hf : fetch s = .ok i) (hpush : isPush i = false) (hidle : i ≠ .idle) (src arr : List Byte)
    (f : Byte) : fetch (resupply src arr f s) = .ok i := by
  rw [fetch_eq_chosen, Except.ok.injEq] at hf
  subst hf
  exact (fetch_eq_chosen _).trans (congrArg Except.ok (chosen_ignores_source hpush hidle _ _))

/-- An operation that is no PUSH acts the same over any source, and leaves it in place. -/
theorem exec_setSource (hi : isPush i = false) (he : exec i s = .next t) (bs : List Byte) :
    exec i (s.setSource bs) = .next (t.setSource bs) := by
  cases i with
  | reset | halt | check | idle =>
    cases he
    rfl
  | dispatch =>
    obtain ⟨hlen, rfl⟩ := execDispatch_next.1 he
    exact execDispatch_next.2 ⟨hlen, rfl⟩
  | pushB0 | pushB1 | pushB2 | pushW | pushF => cases hi

/-- Settles O30: neither the priority choice above IDLE nor what those operations do reads the source. -/
theorem pollingHasNoSideEffect : Obligations.PollingHasNoSideEffect := by
  intro s i src arr f hf hi
  have hpush : isPush i = false := by rcases hi with rfl | rfl | rfl | rfl <;> rfl
  have hidle : i ≠ .idle := by rcases hi with rfl | rfl | rfl | rfl <;> exact Instr.noConfusion
  have hfetch : fetch (resupply src arr f s) = .ok i := fetch_resupply hf hpush hidle src arr f
  refine ⟨hfetch, fun t hs => ?_⟩
  have he : exec i (sample s) = .next t := step_of_fetch hf ▸ hs
  calc step (resupply src arr f s)
    _ = exec i ((sample s).setSource (src ++ arr)) := step_of_fetch hfetch
    _ = .next (t.setSource (src ++ arr)) := exec_setSource hpush he _

end Sys2Proof.Machine
end

section
/-! SUPPORT. Which selectors decode to an operation (R79): the rows are disjoint, so a row that selects decides. -/

namespace Sys2Proof

/-- Two rows ask different values of the bits that both masks read. -/
def Row.Disagree (r q : Row) : Prop := r.pattern &&& q.mask ≠ q.pattern &&& r.mask

/-- Rows that disagree never select one selector. -/
theorem Row.Disagree.not_both_select {r q : Row} {S : Sel} (h : r.Disagree q) (hr : r.selects S = true) :
    ¬q.selects S = true := by
  intro hq
  apply h
  rw [← eq_of_beq hr, ← eq_of_beq hq, BitVec.and_assoc, BitVec.and_assoc, BitVec.and_comm r.mask]

theorem rows_disagree : rows.Pairwise Row.Disagree := by
  simp [rows, Row.Disagree]

/-- At most one row selects a selector (R80). -/
theorem row_eq_of_selects {r q : Row} {S : Sel} (hr : r ∈ rows) (hq : q ∈ rows) (hrsel : r.selects S = true)
    (hqsel : q.selects S = true) : r = q := by
  have hsymm : Std.Symm Row.Disagree := ⟨fun _ _ => Ne.symm⟩
  by_contra hne
  exact (rows_disagree.forall hr hq hne).not_both_select hrsel hqsel

theorem decode_of_selects {S : Sel} {r : Row} (hr : r ∈ rows) (hsel : r.selects S = true) :
    decode S = .ok (r.build (dataOf S)) := by
  obtain ⟨q, hfind⟩ := Option.isSome_iff_exists.1 (List.find?_isSome (p := (Row.selects · S)).2 ⟨r, hr, hsel⟩)
  have hqsel : q.selects S = true := List.find?_some (p := (Row.selects · S)) hfind
  obtain rfl : q = r := row_eq_of_selects (List.mem_of_find?_eq_some hfind) hr hqsel hsel
  simp [decode, hfind]

/-- A selector decodes to an operation exactly where a row selects it and builds the operation from `S[7:0]`. -/
theorem decode_eq_ok_iff {S : Sel} {i : Instr} :
    decode S = .ok i ↔ ∃ r ∈ rows, r.selects S = true ∧ r.build (dataOf S) = i := by
  constructor
  · intro h
    unfold decode at h
    split at h
    · next r hfind =>
      exact ⟨r, List.mem_of_find?_eq_some hfind, List.find?_some (p := (Row.selects · S)) hfind, Except.ok.inj h⟩
    · cases h
  · rintro ⟨r, hr, hsel, rfl⟩
    exact decode_of_selects hr hsel

end Sys2Proof
end

section
/-! SUPPORT. A PUSH where it has its byte and its cells (R101 to R105), and the operation after a complete frame. -/

namespace Sys2Proof.Machine

variable {s t : State} {b : Byte} {rest : List Byte} {i : Instr} {k : Nat}

/-- The byte buffer of a shaped state has the four cells of a word group (R21). -/
theorem State.Shaped.byteBuf_eq_cons (hs : s.Shaped) :
    ∃ b0 b1 b2 b3 spare, s.byteBuf = b0 :: b1 :: b2 :: b3 :: spare := by
  obtain ⟨-, hcap, hlen, -⟩ := hs
  match h : s.byteBuf with
  | b0 :: b1 :: b2 :: b3 :: spare => exact ⟨b0, b1, b2, b3, spare, rfl⟩
  | [] | [_] | [_, _] | [_, _, _] =>
    rw [h] at hlen
    simp only [List.length_cons, List.length_nil] at hlen
    omega

theorem State.Shaped.three_lt_byteBuf_length (hs : s.Shaped) : 3 < s.byteBuf.length := by
  obtain ⟨-, hcap, hlen, -⟩ := hs
  omega

/-- R101 to R103 where the byte is offered: it is stored in cell `k`, the byte cursor is `k + 1`, nothing else moves. -/
theorem pushByte_of_head (hs : s.Shaped) (hsrc : s.source = b :: rest) (hk : k ≤ 3) :
    pushByte k b s = .next { s with
      byteBuf := s.byteBuf.set k b, byteCursor := k + 1, source := rest, srcRead := true,
      outputs := s.outputs ++ [.srcRead b] } :=
  pushByte_next.2 ⟨rest, hsrc, Nat.lt_of_le_of_lt hk hs.three_lt_byteBuf_length, rfl⟩

/-- R104 and R105 where the byte is offered and the frame has room: the fourth byte is stored, the decoded word appended
at the frame cursor, the byte cursor is 0, nothing else moves. -/
theorem pushWord_of_room {b0 b1 b2 b3 : Byte} {spare : List Byte} (hs : s.Shaped) (hsrc : s.source = b :: rest)
    (hbuf : s.byteBuf = b0 :: b1 :: b2 :: b3 :: spare) (hroom : s.frameCursor < s.params.channels) :
    pushWord b s = .next { s with
      byteBuf := b0 :: b1 :: b2 :: b :: spare, byteCursor := 0,
      frameBuf := s.frameBuf.set s.frameCursor (wordOf b0 b1 b2 b), frameCursor := s.frameCursor + 1,
      source := rest, srcRead := true, outputs := s.outputs ++ [.srcRead b] } := by
  have hframe : s.frameCursor < s.frameBuf.length := by
    obtain ⟨-, -, -, hlen⟩ := hs
    rwa [hlen]
  have hcells : (afterRead b rest s).byteBuf = b0 :: b1 :: b2 :: b3 :: spare := hbuf
  have hword : groupWord b (afterRead b rest s) = some (wordOf b0 b1 b2 b) := by simp [groupWord, hcells]
  refine pushWord_next.2 ⟨rest, hsrc, .inl ⟨hroom, completeWord_eq_some.2
    ⟨hs.three_lt_byteBuf_length, hframe, _, hword, ?_⟩⟩⟩
  have hstored : s.byteBuf.set 3 b = b0 :: b1 :: b2 :: b :: spare := by rw [hbuf]; rfl
  rw [← hstored]
  rfl

/-- A PUSH of a shaped state answers where the source offers its operand and the frame has room. -/
theorem exec_push_answers (hs : s.Shaped) (hroom : s.frameCursor < s.params.channels) (hsrc : s.source = b :: rest)
    (hi : i.operand = some b) : ∃ t, exec i s = .next t := by
  obtain ⟨b0, b1, b2, b3, spare, hbuf⟩ := hs.byteBuf_eq_cons
  cases i with
  | reset | halt | check | dispatch | idle => cases hi
  | pushB0 | pushB1 | pushB2 =>
    cases hi
    exact ⟨_, pushByte_of_head hs hsrc (by decide)⟩
  | pushW | pushF =>
    cases hi
    exact ⟨_, pushWord_of_room hs hsrc hbuf hroom⟩

/-- A PUSH with room in the frame leaves the fault register alone and the byte cursor below 4. -/
theorem exec_push_fault_byteCursor (hi : isPush i = true) (hroom : s.frameCursor < s.params.channels)
    (he : exec i s = .next t) : t.fault = s.fault ∧ t.byteCursor ≤ 3 := by
  have hbyte : ∀ {k b}, k + 1 ≤ 3 → pushByte k b s = .next t → t.fault = s.fault ∧ t.byteCursor ≤ 3 := by
    intro k b hk h
    obtain ⟨rest, -, -, rfl⟩ := pushByte_next.1 h
    exact ⟨rfl, hk⟩
  have hword : ∀ {b}, pushWord b s = .next t → t.fault = s.fault ∧ t.byteCursor ≤ 3 := by
    intro b h
    obtain ⟨rest, -, ⟨-, hword⟩ | ⟨hfull, -⟩⟩ := pushWord_next.1 h
    · obtain ⟨-, -, w, -, rfl⟩ := completeWord_eq_some.1 hword
      exact ⟨rfl, Nat.zero_le 3⟩
    · exact absurd hroom (Nat.not_lt.2 hfull)
  cases i with
  | reset | halt | check | dispatch | idle => cases hi
  | pushB0 | pushB1 | pushB2 => exact hbyte (by decide) he
  | pushW | pushF => exact hword he

@[simp] theorem operand_pushAt (c : Nat) (lst : Bool) (b : Byte) : (pushAt c lst b).operand = some b := by
  rcases c with _ | _ | _ | _ <;> cases lst <;> rfl

/-- At the last word of a frame no PUSH is PUSH.W (R105). -/
theorem pushAt_last_ne_pushW (c : Nat) (b d : Byte) : pushAt c true d ≠ .pushW b := by
  rcases c with _ | _ | _ | _ <;> exact Instr.noConfusion

/-- What the selection of a PUSH says of the inputs and the state: R100's conditions, and which PUSH it is (R79). -/
theorem fetch_push_inv (hf : fetch s = .ok i) (hi : isPush i = true) :
    (nextDraw s).rst = false ∧ s.fault = .noFault ∧ s.byteCursor ≤ 3 ∧ s.frameCursor < s.params.channels ∧
      ∃ b rest, (sample s).source = b :: rest ∧ i = pushAt s.byteCursor (last s) b := by
  obtain ⟨hroom, havail⟩ := room_and_srcAvail_of_fetch_push hf hi
  rw [fetch_eq_chosen, Except.ok.injEq] at hf
  subst hf
  obtain ⟨hrst, hfault, hinv, -, -, hpush⟩ := isPush_chosen hi
  have hle : s.byteCursor ≤ 3 := by simp [inv] at hinv; exact hinv.1
  refine ⟨hrst, by simpa [faulted] using hfault, hle, hroom, ?_⟩
  rw [hpush, Nat.mod_eq_of_lt (Nat.lt_succ_of_le hle)]
  unfold srcAvail at havail
  unfold srcData
  match hsrc : (sample s).source with
  | [] =>
    rw [hsrc] at havail
    cases havail
  | b :: rest => exact ⟨b, rest, rfl, rfl⟩

/-- A healthy block with a complete frame and an intact byte cursor dispatches next, unless `rst` comes (R79, R141). -/
theorem fetch_of_complete_frame (hfault : s.fault = .noFault) (hbyte : s.byteCursor ≤ 3)
    (hfull : s.frameCursor = s.params.channels) : fetch s = .ok .dispatch ∨ fetch s = .ok .reset := by
  have hflt : faulted s = false := by simp [faulted, hfault]
  have hinv : inv s = true := by simp [inv, hbyte, hfull]
  have hdisp : disp s = true := by simp [disp, hfull]
  rw [fetch_eq_chosen, hflt, hinv, hdisp]
  cases (nextDraw s).rst
  · exact .inl rfl
  · exact .inr rfl

theorem phase_eq_accumulating (h : s.frameCursor < s.params.channels) :
    phase s = some (.accumulating s.frameCursor) := if_pos h

end Sys2Proof.Machine
end

section
/-! CLAIM. The Byte Accumulator (40_accumulator.md): when a PUSH is selected and what each of the five does. -/

namespace Sys2Proof.Machine

/-- Settles O7: selection gives R100's conditions; the PUSH then answers, reads the head byte and leaves a healthy block
with an intact byte cursor, which dispatches if its frame is complete. -/
theorem pushSelectedOnlyWhenHealthyAndOffered : Obligations.PushSelectedOnlyWhenHealthyAndOffered := by
  intro s i hf hi
  obtain ⟨hrst, hfault, hbyte, hroom, b, rest, hsrc, hpush⟩ := fetch_push_inv hf hi
  have hop : i.operand = some b := by rw [hpush, operand_pushAt]
  refine ⟨hrst, hfault, hbyte, hroom, b, rest, hsrc, hop, fun hs => ?_⟩
  obtain ⟨t, he⟩ := exec_push_answers (s := sample s) hs hroom hsrc hop
  obtain ⟨d, hd, hread⟩ := exec_push_readsHead (s := sample s) hi hroom he
  obtain rfl : b = d := Option.some.inj (hop.symm.trans hd)
  obtain ⟨hkept, hcursor⟩ := exec_push_fault_byteCursor (s := sample s) hi hroom he
  have hrest : t.source = rest := (List.cons.inj (hread.source.symm.trans hsrc)).2
  exact ⟨t, (step_of_fetch hf).trans he, hread.outputs, hrest, hread.srcRead,
    fetch_of_complete_frame (hkept.trans hfault) hcursor⟩

/-- Settles O8: the selectors by their rows, each result by the one rule for a byte stored in its cell. -/
theorem pushFirstThreeBytesStoreAndAdvance : Obligations.PushFirstThreeBytesStoreAndAdvance := by
  constructor
  · intro S b
    simp [decode_eq_ok_iff, rows, Row.selects, dataOf]
  · intro s b rest hs hsrc
    exact ⟨pushByte_of_head hs hsrc (by decide), pushByte_of_head hs hsrc (by decide),
      pushByte_of_head hs hsrc (by decide)⟩

/-- Settles O9: the frame has room for another word after this one, so the block still accumulates. -/
theorem pushWordDecodesAndAppends : Obligations.PushWordDecodesAndAppends := by
  constructor
  · intro S b
    simp [decode_eq_ok_iff, rows, Row.selects, dataOf]
  · intro s b b0 b1 b2 b3 rest spare hs hsrc hbuf hnext
    have hroom : s.frameCursor < s.params.channels := Nat.lt_of_succ_lt hnext
    exact ⟨_, pushWord_of_room hs hsrc hbuf hroom, rfl, phase_eq_accumulating hnext⟩

/-- With one channel every word is the last of its frame, so PUSH.W is never fetched. -/
theorem fetch_ne_pushW_of_one_channel {s : State} (hN : s.params.channels = 1) (b : Byte) :
    fetch s ≠ .ok (.pushW b) := by
  intro hf
  obtain ⟨-, -, -, hroom, d, rest, -, hpush⟩ := fetch_push_inv hf rfl
  have hlast : last s = true := by
    simp only [last, decide_eq_true_eq]
    omega
  rw [hlast] at hpush
  exact pushAt_last_ne_pushW _ _ _ hpush.symm

/-- Settles O10: the appended word is the last of the frame, whose cursor is then `N`. -/
theorem pushFinalWordCompletesTheFrame : Obligations.PushFinalWordCompletesTheFrame := by
  refine ⟨fun S b => ?_, fun s b b0 b1 b2 b3 rest spare hs hsrc hbuf hlast => ?_,
    fun s b hN => fetch_ne_pushW_of_one_channel hN b⟩
  · simp [decode_eq_ok_iff, rows, Row.selects, dataOf]
  · have hroom : s.frameCursor < s.params.channels := by omega
    have hcell : s.params.channels - 1 = s.frameCursor := by omega
    have hexec : exec (.pushF b) s = _ := pushWord_of_room hs hsrc hbuf hroom
    rw [hlast] at hexec
    rw [hcell]
    exact ⟨_, hexec, rfl, phase_eq_dispatching_iff.2 rfl,
      fun hfault => fetch_of_complete_frame hfault (Nat.zero_le 3) rfl⟩

end Sys2Proof.Machine
end

section
/-! SUPPORT. The setpoint of a word: bit 31 is the sign (R9, R122). -/

namespace Sys2Proof

/-- A word below `2^31` stands for its own value, any other for that value less `2^32`. -/
theorem sint32_eq_ite (w : Word) :
    sint32 w = if w.toNat < 2 ^ 31 then (w.toNat : Int) else (w.toNat : Int) - 2 ^ 32 := by
  have hsign : 2 * w.toNat < 2 ^ 32 ↔ w.toNat < 2 ^ 31 := by omega
  simp only [sint32, BitVec.toInt_eq_toNat_cond, hsign, Nat.cast_pow, Nat.cast_ofNat]

end Sys2Proof
end

section
/-! CLAIM. The setpoint of a byte group (R120 to R122): the weighted sum of its bytes, read as a signed word. -/

namespace Sys2Proof.Machine

/-- Settles O15: the sum of the weighted bytes does not overflow the word, and the setpoint is the word's signed value. -/
theorem decodeIsTheSignedWeightedSum : Obligations.DecodeIsTheSignedWeightedSum := by
  intro b0 b1 b2 b3
  have hword := wordOf_toNat b0 b1 b2 b3
  refine ⟨hword, ?_⟩
  rw [← hword]
  exact sint32_eq_ite (wordOf b0 b1 b2 b3)

end Sys2Proof.Machine
end

section
/-! SUPPORT. What the operations send: DISPATCH one record and the channel calls in index order (R143, R144), every other
operation neither record nor call. -/

namespace Sys2Proof.Machine

variable {s t : State} {b : Byte} {i : Instr}

/-- The calls in index order are the words paired with their indices (R144). -/
theorem channelCalls_eq_map_zipIdx (F : List Word) :
    ∀ j, channelCalls j F = (F.zipIdx j).map fun p => Event.setChannel p.2 p.1 := by
  induction F with
  | nil => exact fun _ => rfl
  | cons v F ih => exact fun j => congrArg (Event.setChannel j v :: ·) (ih (j + 1))

@[simp] theorem recordCount_channelCalls (F : List Word) : ∀ j, recordCount (channelCalls j F) = 0 := by
  induction F with
  | nil => exact fun _ => rfl
  | cons v F ih => exact fun j => ih (j + 1)

/-- A dispatch sends one record (R143). -/
@[simp] theorem recordCount_dispatchEvents (F : List Word) : recordCount (dispatchEvents F) = 1 := by
  simp [dispatchEvents, recordCount]

/-- In a shaped state the dispatched frame is the whole frame buffer; nothing but the outputs, the frame cursor and
`src_read` moves (R142, R145, R146). -/
theorem execDispatch_of_shaped (hs : s.Shaped) :
    execDispatch s = .next { s with
      frameCursor := 0, srcRead := false, outputs := s.outputs ++ dispatchEvents s.frameBuf } := by
  obtain ⟨-, -, -, hlen⟩ := hs
  refine execDispatch_next.2 ⟨hlen.ge, ?_⟩
  rw [← hlen, List.take_length]
  rfl

/-- From `s` to `t` events may be added, but nothing for the sink or the actuator. -/
def SendsNothing (s t : State) : Prop :=
  ∃ evs, t.outputs = s.outputs ++ evs ∧ ∀ e ∈ evs, e.isFrameOutput = false

theorem sendsNothing_of_outputs_eq (h : t.outputs = s.outputs) : SendsNothing s t :=
  ⟨[], by rw [h, List.append_nil], by simp⟩

theorem sendsNothing_of_srcRead (h : t.outputs = s.outputs ++ [.srcRead b]) : SendsNothing s t :=
  ⟨_, h, by simp [Event.isFrameOutput]⟩

theorem raiseFault_sendsNothing (c : FaultCode) (s : State) : SendsNothing s (raiseFault c s) :=
  ⟨_, rfl, by simp [Event.isFrameOutput]⟩

theorem pushWord_sendsNothing (he : pushWord b s = .next t) : SendsNothing s t := by
  obtain ⟨rest, -, ⟨-, hword⟩ | ⟨-, rfl⟩⟩ := pushWord_next.1 he
  · obtain ⟨-, -, w, -, rfl⟩ := completeWord_eq_some.1 hword
    exact sendsNothing_of_srcRead rfl
  · exact raiseFault_sendsNothing _ s

/-- No operation but DISPATCH sends to the sink or the actuator. -/
theorem exec_sendsNothing (hi : i ≠ .dispatch) (he : exec i s = .next t) : SendsNothing s t := by
  cases i with
  | reset | halt | idle =>
    cases he
    exact sendsNothing_of_outputs_eq rfl
  | check =>
    cases he
    exact raiseFault_sendsNothing _ s
  | dispatch => exact absurd rfl hi
  | pushB0 | pushB1 | pushB2 => exact sendsNothing_of_srcRead (pushByte_readsHead he).outputs
  | pushW | pushF => exact pushWord_sendsNothing he

end Sys2Proof.Machine
end

section
/-! CLAIM. The Frame Assembler (42_frame_assembler.md): what DISPATCH sends, and that nothing else sends a frame. -/

namespace Sys2Proof.Machine

/-- Settles O18: the calls in index order are the frame's words with their indices, and the restarted frame has room
since there is at least one channel. -/
theorem dispatchEmitsRecordThenCallsInOrder : Obligations.DispatchEmitsRecordThenCallsInOrder := by
  constructor
  · intro S
    simp [decode_eq_ok_iff, rows, Row.selects]
  · intro s hs
    have hroom : 0 < s.params.channels := hs.1
    refine ⟨_, execDispatch_of_shaped hs, ?_, phase_eq_accumulating hroom⟩
    rw [dispatchEvents, channelCalls_eq_map_zipIdx]

/-- Settles O21: DISPATCH is fetched only with the frame complete, and any other operation sends nothing; RESET adds no
event at all. -/
theorem partialFramesAreNeverDispatched : Obligations.PartialFramesAreNeverDispatched := by
  intro s t hs
  obtain ⟨i, hf, he⟩ := step_next_iff.1 hs
  by_cases hi : i = .dispatch
  · subst hi
    obtain ⟨-, rfl⟩ := execDispatch_next.1 he
    refine ⟨_, rfl, fun _ => ⟨hf, frameCursor_of_fetch_dispatch hf, recordCount_dispatchEvents _⟩, fun hreset => ?_⟩
    cases hf.symm.trans hreset
  · obtain ⟨evs, hout, hnone⟩ := exec_sendsNothing hi he
    refine ⟨evs, hout, fun ⟨e, hmem, hsent⟩ => absurd hsent (by simp [hnone e hmem]), fun hreset => ?_⟩
    cases hf.symm.trans hreset
    cases he
    exact ⟨List.self_eq_append_right.1 hout, rfl⟩

end Sys2Proof.Machine
end

section
/-! CLAIM. The poll loop (43_poll_loop.md): IDLE. -/

namespace Sys2Proof.Machine

/-- Settles O25: of the ten rows, the row of IDLE alone builds it; the step clears `src_read`, and IDLE_DELAY is the
wait of that label. -/
theorem idleChangesNothing : Obligations.IdleChangesNothing := by
  refine ⟨fun S => ?_, fun s => ?_, ?_⟩
  · simp [decode_eq_ok_iff, rows, Row.selects]
  · have hexec : exec .idle s = .next (s.setSrcRead false) := rfl
    rw [hexec, State.setSrcRead]
  · rw [waitOf]

end Sys2Proof.Machine
end

section
/-! SUPPORT. What a step selects, as a case distinction on the inputs and the state (R79, R209), and what the step of a
shaped state leads to: the laws that every claim about steps and runs cites. -/

namespace Sys2Proof.Machine

variable {s t : State} {b : Byte} {rest : List Byte} {w : Word} {i : Instr} {c : Nat} {lst : Bool}

/-- When the coming step of `s` is an operation: R79's rows by priority, in terms of the state's fields. -/
inductive Selects (s : State) : Instr → Prop
  | reset (hrst : (nextDraw s).rst = true) : Selects s .reset
  | halt (hrst : (nextDraw s).rst = false) (hfault : s.fault ≠ .noFault) : Selects s .halt
  | check (hrst : (nextDraw s).rst = false) (hfault : s.fault = .noFault)
      (hbad : ¬(s.byteCursor ≤ 3 ∧ s.frameCursor ≤ s.params.channels)) : Selects s .check
  | dispatch (hrst : (nextDraw s).rst = false) (hfault : s.fault = .noFault) (hbyte : s.byteCursor ≤ 3)
      (hfull : s.frameCursor = s.params.channels) : Selects s .dispatch
  | idle (hrst : (nextDraw s).rst = false) (hfault : s.fault = .noFault) (hbyte : s.byteCursor ≤ 3)
      (hroom : s.frameCursor < s.params.channels) (hsrc : (sample s).source = []) : Selects s .idle
  | push {b : Byte} {rest : List Byte} (hrst : (nextDraw s).rst = false) (hfault : s.fault = .noFault)
      (hbyte : s.byteCursor ≤ 3) (hroom : s.frameCursor < s.params.channels)
      (hsrc : (sample s).source = b :: rest) : Selects s (pushAt s.byteCursor (last s) b)

/-- Every state selects an operation (R80). -/
theorem exists_selects (s : State) : ∃ i, Selects s i := by
  by_cases hrst : (nextDraw s).rst = true
  · exact ⟨_, .reset hrst⟩
  have hrst' : (nextDraw s).rst = false := by simpa using hrst
  by_cases hfault : s.fault = .noFault
  · by_cases hinv : s.byteCursor ≤ 3 ∧ s.frameCursor ≤ s.params.channels
    · obtain ⟨hbyte, hframe⟩ := hinv
      rcases Nat.eq_or_lt_of_le hframe with hfull | hroom
      · exact ⟨_, .dispatch hrst' hfault hbyte hfull⟩
      · match hsrc : (sample s).source with
        | [] => exact ⟨_, .idle hrst' hfault hbyte hroom hsrc⟩
        | b :: rest => exact ⟨_, .push hrst' hfault hbyte hroom hsrc⟩
    · exact ⟨_, .check hrst' hfault hinv⟩
  · exact ⟨_, .halt hrst' hfault⟩

/-- The fetch finds the selected operation. -/
theorem Selects.fetch_eq (h : Selects s i) : fetch s = .ok i := by
  rw [fetch_eq_chosen]
  cases h with
  | reset hrst => simp [chosen, hrst]
  | halt hrst hfault => simp [chosen, hrst, faulted, hfault]
  | check hrst hfault hbad =>
    have hinv : inv s = false := by simpa [inv] using hbad
    simp [chosen, hrst, faulted, hfault, hinv]
  | dispatch hrst hfault hbyte hfull => simp [chosen, hrst, faulted, hfault, inv, hbyte, disp, hfull]
  | idle hrst hfault hbyte hroom hsrc =>
    have havail : srcAvail (sample s) = false := by rw [srcAvail, hsrc]; rfl
    simp [chosen, hrst, faulted, hfault, inv, hbyte, hroom.le, disp, hroom.ne, havail]
  | push hrst hfault hbyte hroom hsrc =>
    have havail : srcAvail (sample s) = true := by rw [srcAvail, hsrc]; rfl
    have hcur : s.byteCursor % 4 = s.byteCursor := Nat.mod_eq_of_lt (Nat.lt_succ_of_le hbyte)
    rw [srcData, hsrc, havail, hcur]
    simp [chosen, hrst, faulted, hfault, inv, hbyte, hroom.le, disp, hroom.ne]

/-- An operation is fetched exactly where it is selected. -/
theorem fetch_eq_ok_iff : fetch s = .ok i ↔ Selects s i := by
  refine ⟨fun hf => ?_, Selects.fetch_eq⟩
  obtain ⟨j, hj⟩ := exists_selects s
  obtain rfl : j = i := Except.ok.inj (hj.fetch_eq.symm.trans hf)
  exact hj

/-! ### What a step of a shaped state leads to -/

/-- The state after a PUSH that stores `b` at the byte cursor (R101 to R103). -/
def stored (b : Byte) (rest : List Byte) (s : State) : State :=
  { s with
    byteBuf := s.byteBuf.set s.byteCursor b, byteCursor := s.byteCursor + 1, source := rest, srcRead := true,
    outputs := s.outputs ++ [.srcRead b] }

/-- The state after a PUSH whose byte `b` completes the word `w` (R104, R105). -/
def completed (b : Byte) (rest : List Byte) (w : Word) (s : State) : State :=
  { s with
    byteBuf := s.byteBuf.set 3 b, byteCursor := 0, frameBuf := s.frameBuf.set s.frameCursor w,
    frameCursor := s.frameCursor + 1, source := rest, srcRead := true, outputs := s.outputs ++ [.srcRead b] }

/-- The state after a DISPATCH of the whole frame buffer (R142). -/
def dispatched (s : State) : State :=
  { s with frameCursor := 0, srcRead := false, outputs := s.outputs ++ dispatchEvents s.frameBuf }

/-- The operation and the next state of a step of `s`, where `s` is shaped (R170). -/
inductive StepsTo (s : State) : Instr → State → Prop
  | reset (hrst : (nextDraw s).rst = true) : StepsTo s .reset (clearBlock (sample s))
  | halt (hrst : (nextDraw s).rst = false) (hfault : s.fault ≠ .noFault) :
      StepsTo s .halt ((sample s).setSrcRead false)
  | check (hrst : (nextDraw s).rst = false) (hfault : s.fault = .noFault)
      (hbad : ¬(s.byteCursor ≤ 3 ∧ s.frameCursor ≤ s.params.channels)) :
      StepsTo s .check (raiseFault (overrunCause s) (sample s))
  | dispatch (hrst : (nextDraw s).rst = false) (hfault : s.fault = .noFault) (hbyte : s.byteCursor ≤ 3)
      (hfull : s.frameCursor = s.params.channels) : StepsTo s .dispatch (dispatched (sample s))
  | idle (hrst : (nextDraw s).rst = false) (hfault : s.fault = .noFault) (hbyte : s.byteCursor ≤ 3)
      (hroom : s.frameCursor < s.params.channels) (hsrc : (sample s).source = []) :
      StepsTo s .idle ((sample s).setSrcRead false)
  | store {b : Byte} {rest : List Byte} (hrst : (nextDraw s).rst = false) (hfault : s.fault = .noFault)
      (hbyte : s.byteCursor < 3) (hroom : s.frameCursor < s.params.channels)
      (hsrc : (sample s).source = b :: rest) :
      StepsTo s (pushAt s.byteCursor (last s) b) (stored b rest (sample s))
  | complete {b : Byte} {rest : List Byte} {w : Word} (hrst : (nextDraw s).rst = false) (hfault : s.fault = .noFault)
      (hbyte : s.byteCursor = 3) (hroom : s.frameCursor < s.params.channels)
      (hsrc : (sample s).source = b :: rest) (hword : groupWord b s = some w) :
      StepsTo s (pushAt 3 (last s) b) (completed b rest w (sample s))

theorem StepsTo.selects (h : StepsTo s i t) : Selects s i := by
  cases h with
  | reset hrst => exact .reset hrst
  | halt hrst hfault => exact .halt hrst hfault
  | check hrst hfault hbad => exact .check hrst hfault hbad
  | dispatch hrst hfault hbyte hfull => exact .dispatch hrst hfault hbyte hfull
  | idle hrst hfault hbyte hroom hsrc => exact .idle hrst hfault hbyte hroom hsrc
  | store hrst hfault hbyte hroom hsrc => exact .push hrst hfault hbyte.le hroom hsrc
  | complete hrst hfault hbyte hroom hsrc =>
    rw [← hbyte]
    exact .push hrst hfault hbyte.le hroom hsrc

theorem exec_pushAt_of_lt (hc : c < 3) : exec (pushAt c lst b) s = pushByte c b s := by
  match c, hc with
  | 0, _ | 1, _ | 2, _ => rfl

theorem exec_pushAt_three : exec (pushAt 3 lst b) s = pushWord b s := by cases lst <;> rfl

/-- The byte buffer of a shaped state holds a word group for the byte that completes it (R107). -/
theorem State.Shaped.exists_groupWord (hs : s.Shaped) (b : Byte) : ∃ w, groupWord b s = some w := by
  obtain ⟨b0, b1, b2, b3, spare, hbuf⟩ := hs.byteBuf_eq_cons
  exact ⟨_, groupWord_eq_some.2 ⟨b0, b1, b2, by simp [hbuf], by simp [hbuf], by simp [hbuf], rfl⟩⟩

/-- `pushWord` where the byte is offered and the frame has room, in terms of the word it completes. -/
theorem pushWord_eq_completed (hs : s.Shaped) (hsrc : s.source = b :: rest) (hroom : s.frameCursor < s.params.channels)
    (hword : groupWord b s = some w) : pushWord b s = .next (completed b rest w s) := by
  have hbytes := hs.three_lt_byteBuf_length
  obtain ⟨-, -, -, hlen⟩ := hs
  exact pushWord_next.2 ⟨rest, hsrc, .inl ⟨hroom, completeWord_eq_some.2 ⟨hbytes, hlen ▸ hroom, w, hword, rfl⟩⟩⟩

theorem StepsTo.step_eq (hs : s.Shaped) (h : StepsTo s i t) : step s = .next t := by
  rw [step_of_fetch h.selects.fetch_eq]
  cases h with
  | reset | halt | check | idle => rfl
  | dispatch => exact execDispatch_of_shaped (s := sample s) hs
  | store _ _ hbyte _ hsrc =>
    rw [exec_pushAt_of_lt hbyte]
    exact pushByte_of_head (s := sample s) hs hsrc hbyte.le
  | complete _ _ _ hroom hsrc hword =>
    rw [exec_pushAt_three]
    exact pushWord_eq_completed (s := sample s) hs hsrc hroom hword

/-- A selected operation of a shaped state leads somewhere. -/
theorem Selects.exists_stepsTo (hs : s.Shaped) (h : Selects s i) : ∃ t, StepsTo s i t := by
  cases h with
  | reset hrst => exact ⟨_, .reset hrst⟩
  | halt hrst hfault => exact ⟨_, .halt hrst hfault⟩
  | check hrst hfault hbad => exact ⟨_, .check hrst hfault hbad⟩
  | dispatch hrst hfault hbyte hfull => exact ⟨_, .dispatch hrst hfault hbyte hfull⟩
  | idle hrst hfault hbyte hroom hsrc => exact ⟨_, .idle hrst hfault hbyte hroom hsrc⟩
  | @push b rest hrst hfault hbyte hroom hsrc =>
    rcases Nat.lt_or_eq_of_le hbyte with hlt | heq
    · exact ⟨_, .store hrst hfault hlt hroom hsrc⟩
    · obtain ⟨w, hword⟩ := hs.exists_groupWord b
      rw [heq]
      exact ⟨_, .complete hrst hfault heq hroom hsrc hword⟩

/-- Every step of a shaped state is one of the cases of `StepsTo`, for the operation that was fetched. -/
theorem stepsTo_of_step (hs : s.Shaped) (hstep : step s = .next t) : ∃ i, StepsTo s i t := by
  obtain ⟨i, hi⟩ := exists_selects s
  obtain ⟨u, hu⟩ := hi.exists_stepsTo hs
  cases (hu.step_eq hs).symm.trans hstep
  exact ⟨i, hu⟩

theorem stepsTo_of_fetch (hs : s.Shaped) (hf : fetch s = .ok i) (hstep : step s = .next t) : StepsTo s i t := by
  obtain ⟨j, hj⟩ := stepsTo_of_step hs hstep
  obtain rfl : j = i := Except.ok.inj (hj.selects.fetch_eq.symm.trans hf)
  exact hj

end Sys2Proof.Machine
end

section
/-! CLAIM. The invariants of a step: the shape of the buffers (R21, R23), the order of the cursors (R28, R146). -/

namespace Sys2Proof.Machine

variable {s t : State} {i : Instr}

/-- Clearing the block leaves it at the start of a frame, whatever it held (R230). -/
theorem clearBlock_atFrameStart (hN : 1 ≤ s.params.channels) (hcap : 4 ≤ s.params.byteBufCap) :
    (clearBlock s).AtFrameStart :=
  ⟨⟨hN, hcap, by simp [clearBlock], by simp [clearBlock]⟩, rfl, rfl, rfl⟩

theorem State.AtFrameStart.good (h : s.AtFrameStart) : s.Good := by
  obtain ⟨hs, -, hbyte, hframe⟩ := h
  have hN : 1 ≤ s.params.channels := hs.1
  exact ⟨hs, by omega, by omega, fun _ => hbyte⟩

theorem StepsTo.shaped (hs : s.Shaped) (h : StepsTo s i t) : t.Shaped := by
  obtain ⟨hN, hcap, hbytes, hwords⟩ := hs
  cases h with
  | reset => exact (clearBlock_atFrameStart (s := sample s) hN hcap).1
  | halt | check | idle | dispatch => exact ⟨hN, hcap, hbytes, hwords⟩
  | store => exact ⟨hN, hcap, by simp [stored, hbytes], hwords⟩
  | complete => exact ⟨hN, hcap, by simp [completed, hbytes], by simp [completed, hwords]⟩

theorem StepsTo.params (h : StepsTo s i t) : t.params = s.params := by
  cases h <;> rfl

theorem StepsTo.ordered (ho : s.Ordered) (hs : s.Shaped) (h : StepsTo s i t) : t.Ordered := by
  have hN : 1 ≤ s.params.channels := hs.1
  cases h with
  | reset => exact (clearBlock_atFrameStart (s := sample s) hN hs.2.1).good.2
  | halt | check | idle => exact ho
  | dispatch _ _ _ hfull => exact ⟨ho.1, Nat.zero_le _, fun _ => ho.2.2 hfull⟩
  | store _ _ hbyte hroom => exact ⟨hbyte, hroom.le, fun hfull => absurd hfull hroom.ne⟩
  | complete _ _ _ hroom => exact ⟨Nat.zero_le 3, hroom, fun _ => rfl⟩

theorem StepsTo.good (hg : s.Good) (h : StepsTo s i t) : t.Good :=
  ⟨h.shaped hg.1, h.ordered hg.2 hg.1⟩

/-- Settles O42: case by case of what the step of a shaped state leads to. -/
theorem stepKeepsGood : Obligations.StepKeepsGood := by
  intro s t hg hstep
  obtain ⟨i, hi⟩ := stepsTo_of_step hg.1 hstep
  exact hi.good hg

/-- Settles O41: every state selects an operation, and a selected one leads to a next state. -/
theorem everyStepAnswers : Obligations.EveryStepAnswers := by
  intro s hs
  obtain ⟨i, hi⟩ := exists_selects s
  obtain ⟨t, ht⟩ := hi.exists_stepsTo hs
  exact ⟨t, ht.step_eq hs, ht.shaped hs, ht.params⟩

end Sys2Proof.Machine
end

section
/-! SUPPORT. The bytes of the open frame (R53, R107): how a read extends them, and the words in a byte sequence. -/

namespace Sys2Proof.Machine

variable {s t : State} {b b0 b1 b2 : Byte} {bs cs : List Byte} {k : Nat}

@[simp] theorem bytesRead_append (es fs : List Event) : bytesRead (es ++ fs) = bytesRead es ++ bytesRead fs := by
  induction es with
  | nil => rfl
  | cons e es ih => cases e <;> simp [bytesRead, ih]

@[simp] theorem bytesRead_map_srcRead (bs : List Byte) : bytesRead (bs.map .srcRead) = bs := by
  induction bs with
  | nil => rfl
  | cons b bs ih => simp [bytesRead, ih]

/-- The number of bytes of the open frame that were read. -/
def position (s : State) : Nat := 4 * s.frameCursor + s.byteCursor

theorem openBytes_eq_drop (s : State) :
    openBytes s = (bytesRead s.outputs).drop ((bytesRead s.outputs).length - position s) := rfl

/-- With no byte of a frame read, the invariant holds of any buffers. -/
theorem holdsOpenBytes_of_position_zero (h : position s = 0) : s.HoldsOpenBytes := by
  obtain ⟨hframe, hbyte⟩ : s.frameCursor = 0 ∧ s.byteCursor = 0 := by simpa [position] using h
  refine ⟨?_, fun i hi => absurd hi (by omega), fun k hk => absurd hk (by omega)⟩
  simp [openBytes_eq_drop, position, hframe, hbyte]

/-- The invariant reads nothing but the cursors, the buffers and the bytes read. -/
theorem State.HoldsOpenBytes.congr (h : s.HoldsOpenBytes) (hbyteBuf : t.byteBuf = s.byteBuf)
    (hframeBuf : t.frameBuf = s.frameBuf) (hbyte : t.byteCursor = s.byteCursor)
    (hframe : t.frameCursor = s.frameCursor) (hread : bytesRead t.outputs = bytesRead s.outputs) :
    t.HoldsOpenBytes := by
  have hopen : openBytes t = openBytes s := by simp only [openBytes, hread, hframe, hbyte]
  unfold State.HoldsOpenBytes
  rw [hopen, hbyteBuf, hframeBuf, hbyte, hframe]
  exact h

/-- A read that advances the position by one appends its byte to the open frame. -/
theorem openBytes_of_read (hout : t.outputs = s.outputs ++ [.srcRead b]) (hpos : position t = position s + 1) :
    openBytes t = openBytes s ++ [b] := by
  have hle : (bytesRead s.outputs).length - position s ≤ (bytesRead s.outputs).length := Nat.sub_le _ _
  rw [openBytes_eq_drop, openBytes_eq_drop, hpos, hout, bytesRead_append,
    show bytesRead [Event.srcRead b] = [b] from rfl, List.length_append, List.length_singleton,
    Nat.add_sub_add_right, List.drop_append_of_le_length hle]

theorem wordAt_append_of_lt (h : 4 * k + 3 < bs.length) : wordAt (bs ++ cs) k = wordAt bs k := by
  unfold wordAt
  rw [List.getElem?_append_left (by omega), List.getElem?_append_left (by omega),
    List.getElem?_append_left (by omega), List.getElem?_append_left h]

/-- The byte that completes a group makes it the word of its four bytes (R53). -/
theorem wordAt_append_singleton (hlen : bs.length = 4 * k + 3) (h0 : bs[4 * k]? = some b0)
    (h1 : bs[4 * k + 1]? = some b1) (h2 : bs[4 * k + 2]? = some b2) :
    wordAt (bs ++ [b]) k = some (wordOf b0 b1 b2 b) := by
  have h3 : (bs ++ [b])[4 * k + 3]? = some b := by rw [← hlen, List.getElem?_concat_length]
  unfold wordAt
  rw [List.getElem?_append_left (by omega), List.getElem?_append_left (by omega),
    List.getElem?_append_left (by omega), h0, h1, h2, h3]

end Sys2Proof.Machine
end

section
/-! CLAIM. The buffers hold the bytes of the open frame (R107, R150), and a dispatched frame is their words. -/

namespace Sys2Proof.Machine

variable {s t : State} {b : Byte} {rest : List Byte} {w : Word} {i : Instr}

/-- Storing a byte at the cursor keeps the invariant. -/
theorem State.HoldsOpenBytes.stored (h : s.HoldsOpenBytes) (hs : s.Shaped) (hbyte : s.byteCursor < 3) :
    (stored b rest s).HoldsOpenBytes := by
  obtain ⟨hlen, hwords, hbytes⟩ := h
  have hcell := hs.three_lt_byteBuf_length
  have hopen : openBytes (Machine.stored b rest s) = openBytes s ++ [b] := openBytes_of_read rfl rfl
  unfold State.HoldsOpenBytes
  rw [hopen]
  refine ⟨by simp [Machine.stored, hlen, Nat.add_assoc], fun j hj => ?_, fun k hk => ?_⟩
  · change j < s.frameCursor at hj
    rw [wordAt_append_of_lt (by omega)]
    exact hwords j hj
  · change (s.byteBuf.set s.byteCursor b)[k]? = (openBytes s ++ [b])[4 * s.frameCursor + k]?
    rcases Nat.lt_succ_iff_lt_or_eq.1 hk with hlt | rfl
    · rw [List.getElem?_set_ne hlt.ne', List.getElem?_append_left (by omega)]
      exact hbytes k hlt
    · rw [List.getElem?_set_self (by omega), ← hlen, List.getElem?_concat_length]

/-- Completing a word keeps the invariant: the word appended is the decode of the group's bytes. -/
theorem State.HoldsOpenBytes.completed (h : s.HoldsOpenBytes) (hs : s.Shaped) (hbyte : s.byteCursor = 3)
    (hroom : s.frameCursor < s.params.channels) (hword : groupWord b s = some w) :
    (completed b rest w s).HoldsOpenBytes := by
  obtain ⟨hlen, hwords, hbytes⟩ := h
  obtain ⟨-, -, -, hcells⟩ := hs
  obtain ⟨b0, b1, b2, h0, h1, h2, rfl⟩ := groupWord_eq_some.1 hword
  have hpos : position (Machine.completed b rest (wordOf b0 b1 b2 b) s) = position s + 1 := by
    simp only [position, Machine.completed]
    omega
  have hopen := openBytes_of_read (s := s) (t := Machine.completed b rest (wordOf b0 b1 b2 b) s) rfl hpos
  rw [hbyte] at hlen hbytes
  unfold State.HoldsOpenBytes
  rw [hopen]
  refine ⟨by simp [Machine.completed, hlen]; omega, fun j hj => ?_, fun k hk => absurd hk (Nat.not_lt_zero k)⟩
  change (s.frameBuf.set s.frameCursor (wordOf b0 b1 b2 b))[j]? = wordAt (openBytes s ++ [b]) j
  rcases Nat.lt_succ_iff_lt_or_eq.1 hj with hlt | rfl
  · rw [List.getElem?_set_ne hlt.ne', wordAt_append_of_lt (by omega)]
    exact hwords j hlt
  · rw [List.getElem?_set_self (by omega), wordAt_append_singleton hlen ((hbytes 0 (by decide)).symm.trans h0)
      ((hbytes 1 (by decide)).symm.trans h1) ((hbytes 2 (by decide)).symm.trans h2)]

theorem StepsTo.holdsOpenBytes (hg : s.Good) (ho : s.HoldsOpenBytes) (h : StepsTo s i t) : t.HoldsOpenBytes := by
  obtain ⟨hs, -, -, hdispatching⟩ := hg
  have hsampled : (sample s).HoldsOpenBytes := ho
  cases h with
  | reset => exact holdsOpenBytes_of_position_zero rfl
  | halt | idle => exact ho
  | check => exact ho.congr rfl rfl rfl rfl (by simp [bytesRead])
  | dispatch _ _ _ hfull =>
    have hbyte : s.byteCursor = 0 := hdispatching hfull
    exact holdsOpenBytes_of_position_zero (by simpa [position, dispatched] using hbyte)
  | store _ _ hbyte => exact hsampled.stored hs hbyte
  | complete _ _ hbyte hroom _ hword => exact hsampled.completed hs hbyte hroom hword

/-- Settles O45: a read appends its byte to the open frame and to the cells below the cursors alike; RESET and DISPATCH
leave no open frame; the other operations touch neither. -/
theorem buffersHoldTheBytesOfTheOpenFrame : Obligations.BuffersHoldTheBytesOfTheOpenFrame := by
  intro s t hg ho hstep
  obtain ⟨i, hi⟩ := stepsTo_of_step hg.1 hstep
  exact hi.holdsOpenBytes hg ho

/-- Settles O46: at a complete frame the open bytes are the last `4N` read, and the frame buffer holds their words. -/
theorem dispatchedFrameIsTheLastBytesRead : Obligations.DispatchedFrameIsTheLastBytesRead := by
  rintro s ⟨hs, -, -, hdispatching⟩ ⟨-, hwords, -⟩ hf
  have hfull := frameCursor_of_fetch_dispatch hf
  have hbyte := hdispatching hfull
  have hexec : exec .dispatch (sample s) = .next (dispatched (sample s)) := execDispatch_of_shaped (s := sample s) hs
  refine ⟨_, s.frameBuf, (step_of_fetch hf).trans hexec, hs.2.2.2, ?_, fun j hj => ?_⟩
  · rw [← channelCalls_eq_map_zipIdx]
    rfl
  · rw [hwords j (hfull ▸ hj), openBytes, hbyte, hfull, Nat.add_zero]

end Sys2Proof.Machine
end

section
/-! CLAIM. The Integer Decoder is inverted by the sender's bytes (R126). -/

namespace Sys2Proof.Machine

/-- A word is the decode of its own bytes. -/
theorem wordOf_byteOf (w : Word) : wordOf (byteOf w 0) (byteOf w 1) (byteOf w 2) (byteOf w 3) = w := by
  apply BitVec.eq_of_toNat_eq
  have hw := w.isLt
  rw [wordOf_toNat]
  simp only [byteOf, BitVec.extractLsb'_toNat, Nat.shiftRight_eq_div_pow]
  omega

/-- The pattern of an int32 stands for it. -/
theorem sint32_u32 {v : Int} (hv : isInt32 v = true) : sint32 (u32 v) = v := by
  obtain ⟨hlo, hhi⟩ : -2147483648 ≤ v ∧ v ≤ 2147483647 := by simpa [isInt32] using hv
  rw [sint32, u32, BitVec.toInt_ofInt]
  exact Int.bmod_eq_of_le (by omega) (by omega)

/-- Settles O17: the word of a byte quadruple has the four bytes in its bit fields, so it determines them. -/
theorem decodeIsInvertedByTheSendersBytes : Obligations.DecodeIsInvertedByTheSendersBytes := by
  refine ⟨wordOf_byteOf, fun a0 a1 a2 a3 b0 b1 b2 b3 h => ?_, fun v hv => ⟨_, _, _, _, rfl, ?_, rfl⟩⟩
  · obtain ⟨ha0, ha1, ha2, ha3⟩ := arrivalOrderIsLittleEndian a0 a1 a2 a3
    obtain ⟨hb0, hb1, hb2, hb3⟩ := arrivalOrderIsLittleEndian b0 b1 b2 b3
    rw [h] at ha0 ha1 ha2 ha3
    exact ⟨ha0.symm.trans hb0, ha1.symm.trans hb1, ha2.symm.trans hb2, ha3.symm.trans hb3⟩
  · rw [decodeInt, wordOf_byteOf, sint32_u32 hv]

/-- The words of the senders' bytes of a list of words are those words. -/
theorem wordAt_flatMap_bytesOf (vs : List Word) : ∀ i, wordAt (vs.flatMap bytesOf) i = vs[i]? := by
  induction vs with
  | nil => exact fun i => rfl
  | cons v vs ih =>
    intro i
    cases i with
    | zero => exact congrArg some (wordOf_byteOf v)
    | succ i => exact ih i

theorem length_flatMap_bytesOf (vs : List Word) : (vs.flatMap bytesOf).length = 4 * vs.length := by
  induction vs with
  | nil => rfl
  | cons v vs ih =>
    rw [List.flatMap_cons, List.length_append, ih, List.length_cons, show (bytesOf v).length = 4 from rfl]
    omega

end Sys2Proof.Machine
end

section
/-! CLAIM. The frames of the operations: what each leaves unchanged (the "Written" lines of the spec). -/

namespace Sys2Proof.Machine

variable {s t : State} {b : Byte} {k : Nat} {i : Instr}

/-- What no PUSH touches. -/
structure KeepsSetting (s t : State) : Prop where
  params : t.params = s.params
  draws : t.draws = s.draws
  unspecDraws : t.unspecDraws = s.unspecDraws

theorem pushByte_frame (he : pushByte k b s = .next t) :
    KeepsSetting s t ∧ t.frameCursor = s.frameCursor ∧ t.frameBuf = s.frameBuf ∧ t.fault = s.fault := by
  obtain ⟨rest, -, -, rfl⟩ := pushByte_next.1 he
  exact ⟨⟨rfl, rfl, rfl⟩, rfl, rfl, rfl⟩

/-- A completing PUSH moves the fault register only where the frame has no room, and then nothing else (log 9). -/
theorem pushWord_frame (he : pushWord b s = .next t) :
    KeepsSetting s t ∧ (t.fault = s.fault ∨ (s.params.channels ≤ s.frameCursor ∧ t.byteBuf = s.byteBuf ∧
      t.byteCursor = s.byteCursor ∧ t.frameBuf = s.frameBuf ∧ t.frameCursor = s.frameCursor ∧
      t.source = s.source)) := by
  obtain ⟨rest, -, ⟨-, hword⟩ | ⟨hfull, rfl⟩⟩ := pushWord_next.1 he
  · obtain ⟨-, -, w, -, rfl⟩ := completeWord_eq_some.1 hword
    exact ⟨⟨rfl, rfl, rfl⟩, .inl rfl⟩
  · exact ⟨⟨rfl, rfl, rfl⟩, .inr ⟨hfull, rfl, rfl, rfl, rfl, rfl⟩⟩

/-- Settles O13: the cells by the law of cells not written, the rest by the two shapes of a PUSH. -/
theorem pushFrame : Obligations.PushFrame := by
  intro i s t hi he
  have hreset : i ≠ .reset := by
    rintro rfl
    cases hi
  obtain ⟨hbyte, hframe⟩ := exec_keeps_cells hreset he
  cases i with
  | reset | halt | check | dispatch | idle => cases hi
  | pushB0 b | pushB1 b | pushB2 b =>
    obtain ⟨hset, hcursor, hbuf, hfault⟩ := pushByte_frame he
    exact ⟨hset.params, hset.draws, hset.unspecDraws, hbyte, fun j _ => by rw [hbuf], fun _ => ⟨hcursor, hbuf⟩,
      .inl hfault⟩
  | pushW b | pushF b =>
    obtain ⟨hset, hfault⟩ := pushWord_frame he
    exact ⟨hset.params, hset.draws, hset.unspecDraws, hbyte, fun j hj => hframe j fun h => hj ⟨rfl, h⟩,
      nofun, hfault.imp_right fun h => ⟨rfl, h⟩⟩

/-- Settles O28: each operation's result lists the fields it writes. -/
theorem nonReadingOperationsFrame : Obligations.NonReadingOperationsFrame := by
  intro i s t hi he
  cases i with
  | reset =>
    cases he
    exact ⟨rfl, rfl, rfl, rfl, fun h => absurd rfl h, fun h => absurd rfl h, fun h => absurd rfl h, fun _ _ => rfl⟩
  | halt | idle =>
    cases he
    exact ⟨rfl, rfl, rfl, rfl, fun _ => ⟨rfl, rfl, rfl, rfl⟩, fun _ _ => rfl, fun _ _ => rfl, fun _ _ => rfl⟩
  | check =>
    cases he
    exact ⟨rfl, rfl, rfl, rfl, fun _ => ⟨rfl, rfl, rfl, rfl⟩, fun _ _ => rfl, fun _ h => absurd rfl h,
      fun _ h => absurd rfl h⟩
  | dispatch =>
    obtain ⟨-, rfl⟩ := execDispatch_next.1 he
    exact ⟨rfl, rfl, rfl, rfl, fun _ => ⟨rfl, rfl, rfl, rfl⟩, fun _ h => absurd rfl h, fun _ _ => rfl,
      fun h => absurd rfl h⟩
  | pushB0 | pushB1 | pushB2 | pushW | pushF => cases hi

/-- No operation writes the coming draws: a step takes exactly one. -/
theorem exec_draws (he : exec i s = .next t) : t.draws = s.draws := by
  cases hi : isPush i with
  | false =>
    obtain ⟨-, -, hdraws, -⟩ := nonReadingOperationsFrame i s t hi he
    exact hdraws
  | true =>
    obtain ⟨-, hdraws, -⟩ := pushFrame i s t hi he
    exact hdraws

theorem step_draws (hs : step s = .next t) : t.draws = s.draws.tail := by
  obtain ⟨i, -, he⟩ := step_next_iff.1 hs
  exact exec_draws he

end Sys2Proof.Machine
end

section
/-! CLAIM. The bytes of the sender over a run (R38, D17), and a faulted block over a run (D6). -/

namespace Sys2Proof.Machine

variable {s t u : State} {k : Nat}

/-- A run that has made `k` steps makes one more. -/
theorem run_succ_last (hrun : Sys2Proof.core.run k s = .next t) (hs : step t = .next u) :
    Sys2Proof.core.run (k + 1) s = .next u := by
  induction k generalizing s with
  | zero =>
    cases hrun
    exact run_succ_next_iff.2 ⟨u, hs, rfl⟩
  | succ k ih =>
    obtain ⟨v, hv, hrest⟩ := run_succ_next_iff.1 hrun
    exact run_succ_next_iff.2 ⟨v, hv, ih hrest⟩

/-- The bytes that arrive in the next `k` steps. -/
def arriving (k : Nat) (s : State) : List Byte := (s.draws.take k).flatMap fun d => d.arrivals

theorem arriving_succ (hdraws : t.draws = s.draws.tail) :
    arriving (k + 1) s = (nextDraw s).arrivals ++ arriving k t := by
  unfold arriving nextDraw
  rw [hdraws]
  cases s.draws with
  | nil => simp [Draw.quiet]
  | cons d ds => simp

/-- One step loses and reorders nothing: what it read and what then waits is what waited and what arrived. -/
theorem step_conserves_bytes (hs : step s = .next t) :
    ∃ evs, t.outputs = s.outputs ++ evs ∧ bytesRead evs ++ t.source = s.source ++ (nextDraw s).arrivals := by
  obtain ⟨i, hf, -⟩ := step_next_iff.1 hs
  obtain ⟨hreads, hquiet⟩ := readingPopsTheHeadOnceAndOnlyInPush s t i hf hs
  cases hi : isPush i with
  | false =>
    obtain ⟨hsrc, -, evs, hout, hnone⟩ := hquiet hi
    exact ⟨evs, hout, by rw [hnone, hsrc, sample_source, List.nil_append]⟩
  | true =>
    obtain ⟨b, -, -, hsrc, hout, -⟩ := hreads hi
    exact ⟨[.srcRead b], hout, hsrc.symm⟩

/-- Settles O32: by induction on the steps, each of which conserves the bytes. -/
theorem bytesAreNeitherLostNorReordered : Obligations.BytesAreNeitherLostNorReordered := by
  intro k
  induction k with
  | zero =>
    rintro s t ⟨⟩
    exact ⟨[], by simp, by simp [bytesRead]⟩
  | succ k ih =>
    intro s u hrun
    obtain ⟨t, hs, hrest⟩ := run_succ_next_iff.1 hrun
    obtain ⟨es, hes, hread⟩ := step_conserves_bytes hs
    obtain ⟨fs, hfs, hreads⟩ := ih t u hrest
    refine ⟨es ++ fs, by rw [hfs, hes, List.append_assoc], ?_⟩
    calc bytesRead (es ++ fs) ++ u.source
      _ = bytesRead es ++ (t.source ++ arriving k t) := by
        rw [bytesRead_append, List.append_assoc, hreads, arriving]
      _ = s.source ++ ((nextDraw s).arrivals ++ arriving k t) := by
        rw [← List.append_assoc, hread, List.append_assoc]
      _ = s.source ++ arriving (k + 1) s := by rw [arriving_succ (step_draws hs)]

theorem State.NoReset.nextDraw_rst (h : s.NoReset) : (nextDraw s).rst = false := by
  unfold nextDraw
  match hd : s.draws with
  | [] => rfl
  | d :: ds => exact h d (by simp [hd])

theorem State.NoReset.of_tail (h : s.NoReset) (hdraws : t.draws = s.draws.tail) : t.NoReset := by
  intro d hd
  rw [hdraws] at hd
  exact h d (List.mem_of_mem_tail hd)

/-- A faulted block without `rst` halts, whatever its cursors and cells (R172). -/
theorem step_of_faulted (hfault : s.fault ≠ .noFault) (hrst : (nextDraw s).rst = false) :
    step s = .next ((sample s).setSrcRead false) :=
  step_of_fetch (Selects.halt hrst hfault).fetch_eq

/-- Settles O38: each step is HALT, which leaves the fault in place for the next. -/
theorem faultIsStickyAndSilent : Obligations.FaultIsStickyAndSilent := by
  intro k
  induction k with
  | zero =>
    intro s _ _
    exact ⟨s.srcRead, by simp [Host.Core.run]⟩
  | succ k ih =>
    intro s hfault hreset
    obtain ⟨r, hr⟩ := ih ((sample s).setSrcRead false) hfault (hreset.of_tail rfl)
    refine ⟨r, run_succ_next_iff.2 ⟨_, step_of_faulted hfault hreset.nextDraw_rst, hr.trans ?_⟩⟩
    have harrive := arriving_succ (s := s) (t := (sample s).setSrcRead false) (k := k) rfl
    unfold arriving at harrive
    rw [harrive]
    simp [State.setSrcRead, sample_eq]

end Sys2Proof.Machine
end

section
/-! CLAIM. A healthy good block never faults (R28). -/

namespace Sys2Proof.Machine

variable {s t : State} {b : Byte} {i j : Instr} {c : Nat} {lst : Bool}

theorem pushAt_ne_of_not_push (hj : isPush j = false) : pushAt c lst b ≠ j := by
  rintro rfl
  simp at hj

/-- The step of a healthy good block is neither HALT nor CHECK (R79). -/
theorem Selects.ne_halt_and_ne_check (hg : s.Good) (hh : s.Healthy) (h : Selects s i) : i ≠ .halt ∧ i ≠ .check := by
  obtain ⟨-, hbyte, hframe, -⟩ := hg
  cases h with
  | reset | dispatch | idle => exact ⟨Instr.noConfusion, Instr.noConfusion⟩
  | halt _ hfault => exact absurd hh hfault
  | check _ _ hbad => exact absurd ⟨hbyte, hframe⟩ hbad
  | push => exact ⟨pushAt_ne_of_not_push rfl, pushAt_ne_of_not_push rfl⟩

theorem StepsTo.healthy (hg : s.Good) (hh : s.Healthy) (h : StepsTo s i t) : t.Healthy := by
  obtain ⟨-, hcheck⟩ := h.selects.ne_halt_and_ne_check hg hh
  cases h with
  | reset => rfl
  | check => exact absurd rfl hcheck
  | halt | dispatch | idle | store | complete => exact hh

theorem faultOut_not_mem_dispatchEvents (code : BitVec 2) (F : List Word) : .faultOut code ∉ dispatchEvents F := by
  simp [dispatchEvents, channelCalls_eq_map_zipIdx]

/-- The events of a step that is not CHECK hold no `FaultOut`. -/
theorem StepsTo.no_faultOut (hi : i ≠ .check) (h : StepsTo s i t) :
    ∃ evs, t.outputs = s.outputs ++ evs ∧ ∀ code, .faultOut code ∉ evs := by
  cases h with
  | reset | halt | idle => exact ⟨[], (List.append_nil _).symm, by simp⟩
  | check => exact absurd rfl hi
  | dispatch => exact ⟨_, rfl, fun code => faultOut_not_mem_dispatchEvents code _⟩
  | store | complete => exact ⟨_, rfl, by simp⟩

/-- Settles O43: a good healthy state meets the conditions of neither HALT nor CHECK. -/
theorem goodHealthyStatesNeverFault : Obligations.GoodHealthyStatesNeverFault := by
  intro s t hg hh hstep
  obtain ⟨i, h⟩ := stepsTo_of_step hg.1 hstep
  obtain ⟨hhalt, hcheck⟩ := h.selects.ne_halt_and_ne_check hg hh
  have hf : fetch s = .ok i := h.selects.fetch_eq
  exact ⟨h.healthy hg hh, fun hf' => hhalt (Except.ok.inj (hf.symm.trans hf')),
    fun hf' => hcheck (Except.ok.inj (hf.symm.trans hf')), h.no_faultOut hcheck⟩

end Sys2Proof.Machine
end

section
/-! CLAIM. The position in the byte stream decides the cursors and the frames sent (20_memory.md section 3). -/

namespace Sys2Proof.Machine

variable {s t u : State} {i : Instr} {k : Nat}

/-- What every step from `P` keeps of `P` and adds to a reflexive transitive `R`, a run of any length does. -/
theorem run_invariant {P : State → Prop} {R : State → State → Prop} (hrefl : ∀ s, R s s)
    (htrans : ∀ {s t u}, R s t → R t u → R s u) (hstep : ∀ {s t}, P s → step s = .next t → P t ∧ R s t) (k : Nat) :
    ∀ {s t : State}, P s → Sys2Proof.core.run k s = .next t → P t ∧ R s t := by
  induction k with
  | zero =>
    rintro s t hs ⟨⟩
    exact ⟨hs, hrefl s⟩
  | succ k ih =>
    intro s u hs hrun
    obtain ⟨t, hst, hrest⟩ := run_succ_next_iff.1 hrun
    obtain ⟨ht, hrel⟩ := hstep hs hst
    obtain ⟨hu, hrel'⟩ := ih ht hrest
    exact ⟨hu, htrans hrel hrel'⟩

/-- A healthy good block with no reset to come. -/
structure State.Streams (s : State) : Prop where
  good : s.Good
  healthy : s.Healthy
  noReset : s.NoReset

theorem State.AtFrameStart.streams (h : s.AtFrameStart) (hreset : s.NoReset) : s.Streams :=
  ⟨h.good, h.2.1, hreset⟩

theorem StepsTo.streams (hs : s.Streams) (h : StepsTo s i t) : t.Streams :=
  ⟨h.good hs.good, h.healthy hs.good hs.healthy, hs.noReset.of_tail (step_draws (h.step_eq hs.good.1))⟩

@[simp] theorem recordCount_append (es fs : List Event) : recordCount (es ++ fs) = recordCount es + recordCount fs := by
  induction es with
  | nil => simp [recordCount]
  | cons e es ih => cases e <;> simp [recordCount, ih, Nat.add_right_comm]

/-- From `s` to `t` each byte read moved the position in the frame by one and each record sent took a frame off it. -/
def Advances (s t : State) : Prop :=
  t.params = s.params ∧ ∃ evs, t.outputs = s.outputs ++ evs ∧
    position s + (bytesRead evs).length = 4 * (s.params.channels * recordCount evs) + position t

theorem advances_refl (s : State) : Advances s s := ⟨rfl, [], by simp, by simp [bytesRead, recordCount]⟩

theorem Advances.trans (h : Advances s t) (h' : Advances t u) : Advances s u := by
  obtain ⟨hparams, es, hes, hpos⟩ := h
  obtain ⟨hparams', fs, hfs, hpos'⟩ := h'
  rw [hparams] at hpos'
  refine ⟨hparams'.trans hparams, es ++ fs, by rw [hfs, hes, List.append_assoc], ?_⟩
  rw [bytesRead_append, List.length_append, recordCount_append, Nat.mul_add]
  omega

theorem StepsTo.advances (hs : s.Streams) (h : StepsTo s i t) : Advances s t := by
  refine ⟨h.params, ?_⟩
  obtain ⟨hhalt, hcheck⟩ := h.selects.ne_halt_and_ne_check hs.good hs.healthy
  cases h with
  | reset hrst => exact absurd (hrst.symm.trans hs.noReset.nextDraw_rst) (by decide)
  | halt => exact absurd rfl hhalt
  | check => exact absurd rfl hcheck
  | idle => exact ⟨[], (List.append_nil _).symm, by simp [bytesRead, recordCount, position]⟩
  | dispatch _ _ _ hfull => exact ⟨_, rfl, by simp [position, dispatched, hfull]⟩
  | store => exact ⟨_, rfl, by simp [position, stored, bytesRead, recordCount, Nat.add_assoc]⟩
  | complete _ _ hbyte =>
    refine ⟨_, rfl, ?_⟩
    simp only [position, completed, bytesRead, recordCount, hbyte, sample_frameCursor, List.length_singleton]
    omega

theorem run_streams (hs : s.Streams) (hrun : Sys2Proof.core.run k s = .next t) : t.Streams ∧ Advances s t := by
  refine run_invariant advances_refl Advances.trans (fun {s t} hs hstep => ?_) k hs hrun
  obtain ⟨i, h⟩ := stepsTo_of_step hs.good.1 hstep
  exact ⟨h.streams hs, h.advances hs⟩

/-- Inside a frame the word index and the frame count are the remainder and the quotient of the words read by `N`. -/
theorem frame_of_length {N R f c n : Nat} (hn : n = 4 * (N * R) + 4 * f + c) (hc : c ≤ 3) (hf : f < N) :
    f = n / 4 % N ∧ R = n / (4 * N) := by
  have hwords : n / 4 = N * R + f := by omega
  refine ⟨by rw [hwords, Nat.mul_add_mod, Nat.mod_eq_of_lt hf], ?_⟩
  rw [← Nat.div_div_eq_div_mul, hwords, Nat.mul_add_div (Nat.zero_lt_of_lt hf), Nat.div_eq_of_lt hf, Nat.add_zero]

/-- Settles O47: from a frame start the position is 0, so that the count of the run is `4N` per record and the position
reached. -/
theorem streamPositionDecidesCursorsAndFrames : Obligations.StreamPositionDecidesCursorsAndFrames := by
  intro k s t hstart hreset hrun
  obtain ⟨ht, hparams, evs, hout, hpos⟩ := run_streams (hstart.streams hreset) hrun
  obtain ⟨⟨hN, -⟩, -, hbyte, hframe⟩ := hstart
  obtain ⟨-, hle, -, hdispatching⟩ := ht.good
  rw [hparams] at hdispatching
  have hcount : (bytesRead evs).length =
      4 * (s.params.channels * recordCount evs) + 4 * t.frameCursor + t.byteCursor := by
    simp only [position, hbyte, hframe] at hpos
    omega
  refine ⟨evs, hout, ht.good, ht.healthy, by rw [hcount, Nat.mul_assoc], by omega, frame_of_length hcount hle,
    fun hfull => ?_⟩
  have hwhole : (bytesRead evs).length = 4 * s.params.channels * (recordCount evs + 1) := by
    rw [hcount, hdispatching hfull, hfull, Nat.mul_succ, Nat.mul_assoc]
    rfl
  rw [hwhole]
  exact ⟨Nat.mul_mod_right _ _, by positivity⟩

end Sys2Proof.Machine
end

section
/-! CLAIM. A whole frame offered at a frame start is read in `4N` steps and dispatched in the next (R232). -/

namespace Sys2Proof.Machine

variable {s t u : State} {i : Instr} {b : Byte} {bs rest : List Byte} {vs : List Word}

/-- From `s` to `t` the bytes `bs` were read, in order, into the open frame, and nothing else was emitted. -/
structure ReadsAll (bs : List Byte) (s t : State) : Prop where
  params : t.params = s.params
  outputs : t.outputs = s.outputs ++ bs.map .srcRead
  position : position t = position s + bs.length

/-- A streaming block whose frame is open reads the byte that its source offers. -/
theorem State.Streams.step_reads (hs : s.Streams) (hroom : s.frameCursor < s.params.channels)
    (hsrc : (sample s).source = b :: rest) : ∃ i t, StepsTo s i t ∧ t.source = rest ∧ ReadsAll [b] s t := by
  have hrst := hs.noReset.nextDraw_rst
  rcases Nat.lt_or_eq_of_le hs.good.2.1 with hlt | heq
  · exact ⟨_, _, .store hrst hs.healthy hlt hroom hsrc, rfl, rfl, rfl, rfl⟩
  · obtain ⟨w, hword⟩ := hs.good.1.exists_groupWord b
    refine ⟨_, _, .complete hrst hs.healthy heq hroom hsrc hword, rfl, rfl, rfl, ?_⟩
    simp only [Machine.position, completed, heq, sample_frameCursor, List.length_singleton]
    omega

/-- The bytes that wait in the source are read one per step, as long as the frame has room for them. -/
theorem State.Streams.run_reads (hs : s.Streams) (ho : s.HoldsOpenBytes) (hsrc : s.source = bs ++ rest)
    (hfit : position s + bs.length ≤ 4 * s.params.channels) :
    ∃ t : State, Sys2Proof.core.run bs.length s = .next t ∧ t.Streams ∧ t.HoldsOpenBytes ∧ ReadsAll bs s t := by
  induction bs generalizing s rest with
  | nil => exact ⟨s, rfl, hs, ho, rfl, by simp, rfl⟩
  | cons b bs ih =>
    have hroom : s.frameCursor < s.params.channels := by
      simp only [position, List.length_cons] at hfit
      omega
    have hhead : (sample s).source = b :: (bs ++ (rest ++ (nextDraw s).arrivals)) := by simp [hsrc]
    obtain ⟨i, t, hstep, htsrc, hread⟩ := hs.step_reads hroom hhead
    have hfit' : position t + bs.length ≤ 4 * t.params.channels := by
      rw [hread.position, hread.params, Nat.add_assoc, Nat.add_comm [b].length]
      exact hfit
    obtain ⟨u, hrun, hu, huo, hall⟩ := ih (hstep.streams hs) (hstep.holdsOpenBytes hs.good ho) htsrc hfit'
    refine ⟨u, run_succ_next_iff.2 ⟨t, hstep.step_eq hs.good.1, hrun⟩, hu, huo, hall.params.trans hread.params, ?_, ?_⟩
    · rw [hall.outputs, hread.outputs, List.append_assoc]
      rfl
    · rw [hall.position, hread.position, Nat.add_assoc, Nat.add_comm [b].length]
      rfl

/-- At a complete frame of a good block, its buffer holds the words whose bytes were last read. -/
theorem State.HoldsOpenBytes.frameBuf_eq (hg : s.Good) (ho : s.HoldsOpenBytes)
    (hfull : s.frameCursor = s.params.channels) (hvs : vs.length = s.params.channels)
    (hread : bytesRead s.outputs = bs ++ vs.flatMap bytesOf) : s.frameBuf = vs := by
  obtain ⟨⟨-, -, -, hlen⟩, -, -, hdispatching⟩ := hg
  obtain ⟨-, hwords, -⟩ := ho
  have hopen : openBytes s = vs.flatMap bytesOf := by
    have hpos : position s = (vs.flatMap bytesOf).length := by
      rw [position, hdispatching hfull, hfull, length_flatMap_bytesOf, hvs, Nat.add_zero]
    rw [openBytes_eq_drop, hread, hpos, List.length_append, Nat.add_sub_cancel, List.drop_left]
  apply List.ext_getElem?
  intro j
  rcases Nat.lt_or_ge j s.params.channels with hlt | hge
  · rw [hwords j (hfull ▸ hlt), hopen, wordAt_flatMap_bytesOf]
  · rw [List.getElem?_eq_none (hlen ▸ hge), List.getElem?_eq_none (hvs ▸ hge)]

/-- Where a streaming block is `4N` bytes into its frame, the frame is complete. -/
theorem State.Streams.frame_complete (hs : s.Streams) (hpos : position s = 4 * s.params.channels) :
    s.frameCursor = s.params.channels := by
  obtain ⟨-, hbyte, hframe, -⟩ := hs.good
  simp only [position] at hpos
  omega

/-- A streaming block with a complete frame dispatches it and is at a frame start. -/
theorem State.Streams.step_dispatches (hs : s.Streams) (hfull : s.frameCursor = s.params.channels) :
    step s = .next (dispatched (sample s)) ∧ (dispatched (sample s)).AtFrameStart := by
  obtain ⟨hshape, hbyte, -, hdispatching⟩ := hs.good
  have h : StepsTo s .dispatch (dispatched (sample s)) := .dispatch hs.noReset.nextDraw_rst hs.healthy hbyte hfull
  exact ⟨h.step_eq hshape, h.shaped hshape, hs.healthy, hdispatching hfull, rfl⟩

/-- Settles O48: the `4N` bytes are read one per step, the buffer then holds the words sent, and the next step
dispatches it; what arrived meanwhile waits in the source, since no byte is lost. -/
theorem frameOfBytesIsDispatched : Obligations.FrameOfBytesIsDispatched := by
  intro s vs rest hstart hreset hvs hsrc
  have hlen : (vs.flatMap bytesOf).length = 4 * s.params.channels := by rw [length_flatMap_bytesOf, hvs]
  have hzero : position s = 0 := by
    obtain ⟨-, -, hbyte, hframe⟩ := hstart
    rw [position, hbyte, hframe]
  obtain ⟨t, hrun, ht, hto, hread⟩ := (hstart.streams hreset).run_reads (holdsOpenBytes_of_position_zero hzero) hsrc
    (by rw [hzero, hlen, Nat.zero_add])
  have hfull : t.frameCursor = t.params.channels :=
    ht.frame_complete (by rw [hread.position, hzero, hlen, hread.params, Nat.zero_add])
  have hbuf : t.frameBuf = vs := hto.frameBuf_eq ht.good hfull (by rw [hread.params, hvs])
    (by rw [hread.outputs, bytesRead_append, bytesRead_map_srcRead])
  obtain ⟨hstep, hend⟩ := ht.step_dispatches hfull
  rw [hlen] at hrun
  have hall := run_succ_last hrun hstep
  have hout : (dispatched (sample t)).outputs = s.outputs ++ ((vs.flatMap bytesOf).map .srcRead ++ dispatchEvents vs) :=
    calc t.outputs ++ dispatchEvents t.frameBuf
      _ = _ := by rw [hread.outputs, hbuf, List.append_assoc]
  refine ⟨_, hall, hend, hbuf, ?_, ?_⟩
  · rw [hout, dispatchEvents, channelCalls_eq_map_zipIdx, List.append_assoc]
  · obtain ⟨evs, hevs, hbytes⟩ := bytesAreNeitherLostNorReordered _ _ _ hall
    obtain rfl : _ = evs := List.append_cancel_left (hout.symm.trans hevs)
    rw [bytesRead_append, bytesRead_map_srcRead, bytesRead_dispatchEvents, List.append_nil, hsrc,
      List.append_assoc] at hbytes
    exact List.append_cancel_left hbytes

end Sys2Proof.Machine
end

section
/-! CLAIM. The operation map (R79 to R81): it inverts the encoder, its rows are disjoint and cover the selectors; the
fields of the selector (R78). -/

namespace Sys2Proof.Machine

/-- Settles O1: the encoder's own law, one case per operation. -/
theorem decodeOfEncodeIsIdentity : Obligations.DecodeOfEncodeIsIdentity := by
  intro i _
  cases i with
  | reset => exact Laws.DecodeEncode.reset
  | halt => exact Laws.DecodeEncode.halt
  | check => exact Laws.DecodeEncode.check
  | dispatch => exact Laws.DecodeEncode.dispatch
  | idle => exact Laws.DecodeEncode.idle
  | pushB0 b => exact Laws.DecodeEncode.pushB0 b
  | pushB1 b => exact Laws.DecodeEncode.pushB1 b
  | pushB2 b => exact Laws.DecodeEncode.pushB2 b
  | pushW b => exact Laws.DecodeEncode.pushW b
  | pushF b => exact Laws.DecodeEncode.pushF b

/-- An upper byte is packed from its own bits. -/
theorem packHigh_eta (q : BitVec 8) :
    packHigh (q.getLsbD 7) (q.getLsbD 6) (q.getLsbD 5) (q.getLsbD 4) (q.getLsbD 3) (q.extractLsb' 1 2) (q.getLsbD 0) =
      q := by
  revert q
  decide

/-- Every selector decodes (R80): its upper byte holds some values of the fields, which choose an operation. -/
theorem decode_total (S : Sel) : ∃ i, decode S = .ok i := by
  rw [← joinBytes_eta S, decode_joinBytes, ← packHigh_eta (highByte S), decodeHigh_packHigh]
  exact ⟨_, rfl⟩

/-- Settles O2: the decoder is total, so a row selects; the rows disagree pairwise, so no other does. -/
theorem exactlyOneRowSelectsEachSelector : Obligations.ExactlyOneRowSelectsEachSelector := by
  intro S
  obtain ⟨i, hi⟩ := decode_total S
  obtain ⟨r, hr, hsel, -⟩ := decode_eq_ok_iff.1 hi
  obtain ⟨k, rfl⟩ := List.mem_iff_get.1 hr
  refine ⟨k, hsel, fun j hj => ?_, decode_of_selects hr hsel⟩
  have hdisagree := List.pairwise_iff_get.1 rows_disagree
  rcases lt_trichotomy j k with hlt | heq | hgt
  · exact absurd hsel ((hdisagree j k hlt).not_both_select hj)
  · exact heq
  · exact absurd hj ((hdisagree k j hgt).not_both_select hsel)

/-- The bits of a packed upper byte are the fields, from `rst` in bit 7 to `last` in bit 0 (R78). -/
theorem packHigh_fields (rst flt bad dsp avl : Bool) (c : BitVec 2) (lst : Bool) :
    (packHigh rst flt bad dsp avl c lst).getLsbD 7 = rst ∧ (packHigh rst flt bad dsp avl c lst).getLsbD 6 = flt ∧
    (packHigh rst flt bad dsp avl c lst).getLsbD 5 = bad ∧ (packHigh rst flt bad dsp avl c lst).getLsbD 4 = dsp ∧
    (packHigh rst flt bad dsp avl c lst).getLsbD 3 = avl ∧ (packHigh rst flt bad dsp avl c lst).extractLsb' 1 2 = c ∧
    (packHigh rst flt bad dsp avl c lst).getLsbD 0 = lst := by
  revert rst flt bad dsp avl c lst
  decide

theorem joinBytes_high_bit (q d : BitVec 8) (i : Nat) : (joinBytes q d).getLsbD (8 + i) = q.getLsbD i := by
  simp [joinBytes_bit]

theorem extractLsb'_joinBytes_high (q d : BitVec 8) : (joinBytes q d).extractLsb' 9 2 = q.extractLsb' 1 2 := by
  apply BitVec.eq_of_getLsbD_eq
  intro i hi
  have hbit : 9 + i = 8 + (1 + i) := by omega
  simp [hbit, joinBytes_high_bit]

/-- Settles O3: the upper byte is packed from the conditions, the lower byte is `src_data`. -/
theorem selectorPacksInputsAndState : Obligations.SelectorPacksInputsAndState := by
  intro rst f s
  obtain ⟨hrst, hflt, hbad, hdsp, havl, hcur, hlst⟩ := packHigh_fields rst (faulted s) (!inv s) (disp s) (srcAvail s)
    (BitVec.ofNat 2 s.byteCursor) (last s)
  have hinv : (!inv s) = decide (¬(s.byteCursor ≤ 3 ∧ s.frameCursor ≤ s.params.channels)) := by
    simp only [inv, Bool.decide_and, decide_not]
  have hsrc : srcAvail s = decide (s.source ≠ []) := by cases h : s.source <;> simp [srcAvail, h]
  rw [selector_eq_joinBytes, extractLsb'_joinBytes_high]
  exact ⟨(joinBytes_high_bit _ _ 7).trans hrst, (joinBytes_high_bit _ _ 6).trans hflt,
    (joinBytes_high_bit _ _ 5).trans (hbad.trans hinv), (joinBytes_high_bit _ _ 4).trans hdsp,
    (joinBytes_high_bit _ _ 3).trans (havl.trans hsrc), hcur, (joinBytes_high_bit _ _ 0).trans hlst,
    dataOf_joinBytes _ _⟩

/-- Settles O4: each word is an upper byte, which picks the row, and an operand. -/
theorem writtenOutSelectorsDecode : Obligations.WrittenOutSelectorsDecode :=
  ⟨rfl, rfl, rfl, rfl, rfl, rfl, rfl, rfl, rfl, rfl⟩

end Sys2Proof.Machine
end

section
/-! CLAIM. The operation of a step: run on the sampled state, chosen by priority (R170, R209). -/

namespace Sys2Proof.Machine

/-- Settles O5: the state sampled is the one that the statement writes out. -/
theorem stepRunsTheSelectedOperation : Obligations.StepRunsTheSelectedOperation := by
  rintro s q d i rfl rfl hdec
  have hf : fetch s = .ok i := hdec
  exact step_of_fetch hf

/-- Settles O6: each clause is a case of what a state selects. -/
theorem operationIsChosenByPriority : Obligations.OperationIsChosenByPriority := by
  intro s
  refine ⟨fun hrst => (Selects.reset hrst).fetch_eq, fun hrst => ⟨fun hfault => (Selects.halt hrst hfault).fetch_eq,
    fun hfault => ⟨fun hbad => (Selects.check hrst hfault hbad).fetch_eq,
      fun hbyte hfull => (Selects.dispatch hrst hfault hbyte hfull).fetch_eq,
      fun hbyte hroom => ⟨fun hsrc => (Selects.idle hrst hfault hbyte hroom hsrc).fetch_eq, fun b rest hsrc => ?_⟩⟩⟩⟩
  have hpush := (Selects.push hrst hfault hbyte hroom hsrc).fetch_eq
  refine ⟨fun h => by rw [hpush, h]; rfl, fun h => by rw [hpush, h]; rfl, fun h => by rw [hpush, h]; rfl,
    fun h hmore => ?_, fun h hlast => ?_⟩
  · have hnot : last s = false := by simp [last, hmore.ne]
    rw [hpush, h, hnot]
    rfl
  · have hyes : last s = true := by simp [last, hlast]
    rw [hpush, h, hyes]
    rfl

end Sys2Proof.Machine
end

section
/-! CLAIM. A PUSH off the path of a step: a byte not offered (R218), a frame without room (R140), a cursor that does not
select it; and on it: the source's own `push_byte` contract (R108). -/

namespace Sys2Proof.Machine

variable {s : State} {b : Byte} {k : Nat}

theorem pushByte_refused_iff : pushByte k b s = .refused .readNotOffered ↔ s.source.head? ≠ some b := by
  rw [← readSource_eq_none]
  unfold pushByte
  rcases readSource b s with _ | r
  · simp
  · rcases h : storeByte k b r with _ | t <;> simp [h]

theorem pushWord_refused_iff : pushWord b s = .refused .readNotOffered ↔ s.source.head? ≠ some b := by
  rw [← readSource_eq_none]
  unfold pushWord
  rcases readSource b s with _ | r
  · simp
  · by_cases hroom : s.frameCursor < s.params.channels
    · rcases h : completeWord b r with _ | t <;> simp [hroom, h]
    · simp [hroom]

/-- Settles O12: the read is the first thing either shape of a PUSH does, and the only one that refuses. -/
theorem pushRefusedExactlyWithoutTheOfferedByte : Obligations.PushRefusedExactlyWithoutTheOfferedByte := by
  intro s i b hi
  cases i with
  | reset | halt | check | dispatch | idle => cases hi
  | pushB0 | pushB1 | pushB2 =>
    cases hi
    exact pushByte_refused_iff
  | pushW | pushF =>
    cases hi
    exact pushWord_refused_iff

/-- Settles O11: the second case of what a completing PUSH can do. -/
theorem appendWithoutRoomRaisesFrameOverrun : Obligations.AppendWithoutRoomRaisesFrameOverrun := by
  intro s b rest hsrc hfull
  have hword : pushWord b s = .next (raiseFault .frameOverrun s) := pushWord_next.2 ⟨rest, hsrc, .inr ⟨hfull, rfl⟩⟩
  exact ⟨hword, hword⟩

/-- Settles O50: PUSH.W and PUSH.F are one operation on the state; the phase follows from the frame cursor. -/
theorem completingPushAppendsAtThePresentCursor : Obligations.CompletingPushAppendsAtThePresentCursor := by
  intro s b b0 b1 b2 b3 rest spare hs hsrc hbuf hroom
  have hword := pushWord_of_room hs hsrc hbuf hroom
  exact ⟨_, hword, hword, rfl, fun hmore => phase_eq_accumulating hmore,
    fun hlast => ⟨phase_eq_dispatching_iff.2 hlast, fun hfault => fetch_of_complete_frame hfault (Nat.zero_le 3) hlast⟩⟩

theorem pushByteContract_of_lt (h : s.byteCursor < 3) :
    pushByteContract b s = { s with byteBuf := s.byteBuf.set s.byteCursor b, byteCursor := s.byteCursor + 1 } := by
  have hne : s.byteCursor + 1 ≠ 4 := by omega
  simp [pushByteContract, hne]

/-- At the fourth byte the contract wraps the byte cursor and appends the group's word. -/
theorem pushByteContract_of_three {b0 b1 b2 b3 : Byte} {spare : List Byte} (h : s.byteCursor = 3)
    (hbuf : s.byteBuf = b0 :: b1 :: b2 :: b3 :: spare) :
    pushByteContract b s = { s with
      byteBuf := b0 :: b1 :: b2 :: b :: spare, byteCursor := 0,
      frameBuf := s.frameBuf.set s.frameCursor (wordOf b0 b1 b2 b), frameCursor := s.frameCursor + 1 } := by
  simp [pushByteContract, h, hbuf]

/-- Settles O14: a PUSH below byte cursor 3 stores, the PUSH at 3 completes the word, as the contract does. -/
theorem pushFamilyIsThePushByteContract : Obligations.PushFamilyIsThePushByteContract := by
  rintro s b rest ⟨hs, hbyte, -⟩ hh hrst hroom hsrc
  rw [step_of_fetch (Selects.push hrst hh hbyte hroom hsrc).fetch_eq]
  rcases Nat.lt_or_eq_of_le hbyte with hlt | heq
  · rw [exec_pushAt_of_lt hlt, pushByteContract_of_lt (s := sample s) hlt]
    exact pushByte_of_head (s := sample s) hs hsrc hlt.le
  · obtain ⟨b0, b1, b2, b3, spare, hbuf⟩ := hs.byteBuf_eq_cons
    rw [heq, exec_pushAt_three, pushByteContract_of_three (s := sample s) heq hbuf]
    exact pushWord_of_room (s := sample s) hs hsrc hbuf hroom

end Sys2Proof.Machine
end

section
/-! CLAIM. The output formats: decimal text (R75), the telemetry record (R74), the channel index port (R6, R76). -/

namespace Sys2Proof.Machine

variable {n fuel : Nat}

theorem digit_toNat (h : n < 10) : (digit n).toNat = 0x30 + n := by
  rw [digit, BitVec.toNat_ofNat, Nat.mod_eq_of_lt (by omega)]

theorem digitsValue_concat (ds : List Byte) (h : n < 10) : digitsValue (ds ++ [digit n]) = 10 * digitsValue ds + n := by
  simp [digitsValue, List.foldl_append, digit_toNat h]

/-- A number below 10 has one digit. -/
theorem decDigits_of_lt (h : n < 10) : decDigits (fuel + 1) n = [digit n] := if_pos h

/-- Any other has its last digit after those of its tenth part. -/
theorem decDigits_of_le (h : 10 ≤ n) : decDigits (fuel + 1) n = decDigits fuel (n / 10) ++ [digit (n % 10)] :=
  if_neg (Nat.not_lt.2 h)

/-- What the digits of `n` are (R75): they spell `n`, are ASCII digits, start with `0` for zero alone, and are at least
one and at most `fuel` in number. -/
structure SpellsIn (fuel n : Nat) (ds : List Byte) : Prop where
  value : digitsValue ds = n
  ascii : ∀ d ∈ ds, 0x30 ≤ d.toNat ∧ d.toNat ≤ 0x39
  head : ds.head? = some 0x30#8 → n = 0
  pos : 1 ≤ ds.length
  le : ds.length ≤ fuel

theorem digit_ascii (h : n < 10) : 0x30 ≤ (digit n).toNat ∧ (digit n).toNat ≤ 0x39 := by
  rw [digit_toNat h]
  omega

theorem spellsIn_digit (h : n < 10) : SpellsIn (fuel + 1) n [digit n] where
  value := (digitsValue_concat [] h).trans (Nat.zero_add n)
  ascii := by simpa using digit_ascii h
  head := by
    intro hzero
    have hval := congrArg BitVec.toNat (Option.some.inj hzero)
    rw [digit_toNat h] at hval
    exact Nat.add_left_cancel hval
  pos := Nat.le_refl 1
  le := Nat.le_add_left 1 fuel

theorem SpellsIn.concat {ds : List Byte} (h : SpellsIn fuel (n / 10) ds) (hn : 10 ≤ n) :
    SpellsIn (fuel + 1) n (ds ++ [digit (n % 10)]) where
  value := by
    rw [digitsValue_concat ds (Nat.mod_lt n (by decide)), h.value, Nat.div_add_mod]
  ascii := by
    intro d hd
    rcases List.mem_append.1 hd with hmem | hmem
    · exact h.ascii d hmem
    · rw [List.mem_singleton.1 hmem]
      exact digit_ascii (Nat.mod_lt n (by decide))
  head := by
    intro hzero
    rw [List.head?_append_of_ne_nil _ (List.length_pos_iff.1 h.pos)] at hzero
    have := h.head hzero
    omega
  pos := by simp
  le := by simpa using h.le

theorem decDigits_spells (hn : n < 10 ^ (fuel + 1)) : SpellsIn (fuel + 1) n (decDigits (fuel + 1) n) := by
  induction fuel generalizing n with
  | zero =>
    have hlt : n < 10 := by simpa using hn
    rw [decDigits_of_lt hlt]
    exact spellsIn_digit hlt
  | succ fuel ih =>
    rcases Nat.lt_or_ge n 10 with hlt | hge
    · rw [decDigits_of_lt hlt]
      exact spellsIn_digit hlt
    · rw [decDigits_of_le hge]
      have htenth : n / 10 < 10 ^ (fuel + 1) := Nat.div_lt_of_lt_mul (by rwa [Nat.pow_succ'] at hn)
      exact (ih htenth).concat hge

/-- The magnitude of a setpoint has at most ten digits. -/
theorem natAbs_toInt_lt (v : Word) : v.toInt.natAbs < 10 ^ 10 := by
  have hlo := v.le_toInt
  have hhi := v.toInt_lt
  omega

/-- Settles O20: the digits of the magnitude, which spell it without a leading zero. -/
theorem decimalTextSpellsTheSetpoint : Obligations.DecimalTextSpellsTheSetpoint := by
  intro v
  have h := decDigits_spells (fuel := 9) (natAbs_toInt_lt v)
  refine ⟨decDigits 10 v.toInt.natAbs, rfl, h.value, h.ascii, fun hzero => ?_, h.pos, h.le⟩
  rw [h.head hzero]
  rfl

theorem length_dec (v : Word) : 1 ≤ (dec v).length ∧ (dec v).length ≤ 11 := by
  obtain ⟨ds, hdec, -, -, -, hpos, hle⟩ := decimalTextSpellsTheSetpoint v
  rw [hdec]
  split
  · rw [List.length_cons]
    omega
  · omega

/-- Settles O19: by induction on the values; each adds its text, 1 to 11 bytes, and a semicolon. -/
theorem recordIsSemicolonTerminatedDecimals : Obligations.RecordIsSemicolonTerminatedDecimals := by
  intro F
  induction F with
  | nil => exact ⟨rfl, by decide, by decide⟩
  | cons v F ih =>
    obtain ⟨htext, hlo, hhi⟩ := ih
    obtain ⟨hpos, hle⟩ := length_dec v
    refine ⟨by simp [render, htext, semicolon], ?_, ?_⟩ <;>
      rw [render, List.length_append, List.length_cons, List.length_cons] <;> omega

/-- `ceil(log2 n)` is the least width in which `n` indices fit. -/
theorem ceilLog2_le_iff {w : Nat} : ceilLog2 n ≤ w ↔ n ≤ 2 ^ w := by
  have hpos : 1 ≤ 2 ^ w := Nat.one_le_two_pow
  unfold ceilLog2
  split_ifs with hn
  · exact ⟨fun _ => hn.trans hpos, fun _ => Nat.zero_le w⟩
  · have hne : n - 1 ≠ 0 := by omega
    rw [Nat.succ_le_iff, Nat.log2_lt hne]
    omega

/-- Settles O22: the width is at least the least that holds the indices, and no wider than 1 bit asks. -/
theorem channelIndexFitsItsPort : Obligations.ChannelIndexFitsItsPort := by
  intro p _
  refine ⟨fun i hi => ?_, le_max_left _ _, fun w hw hfit => max_le hw (ceilLog2_le_iff.2 hfit)⟩
  have hfit : p.channels ≤ 2 ^ chanIdxWidth p := ceilLog2_le_iff.1 (le_max_right _ _)
  rw [actIndexPort, BitVec.toNat_ofNat, Nat.mod_eq_of_lt (hi.trans_le hfit)]

end Sys2Proof.Machine
end

section
/-! CLAIM. The poll loop and the state machine: HALT and CHECK (43_poll_loop.md), the transitions (R148, R152). -/

namespace Sys2Proof.Machine

variable {s t : State} {b d : Byte} {i : Instr} {c : Nat} {lst : Bool}

/-- Settles O26: of the ten rows, the row of HALT alone builds it; the step clears `src_read`. -/
theorem haltChangesNothing : Obligations.HaltChangesNothing := by
  refine ⟨fun S => ?_, fun s => ?_⟩
  · simp [decode_eq_ok_iff, rows, Row.selects]
  · have hexec : exec .halt s = .next (s.setSrcRead false) := rfl
    rw [hexec, State.setSrcRead]

theorem overrunCause_of_le (h : 4 ≤ s.byteCursor) : overrunCause s = .byteOverrun := if_pos h

theorem overrunCause_of_lt (h : s.byteCursor ≤ 3) : overrunCause s = .frameOverrun :=
  if_neg (Nat.not_le.2 (Nat.lt_succ_of_le h))

/-- CHECK raises the fault of its cause. -/
theorem exec_check (s : State) : exec .check s = .next (raiseFault (overrunCause s) s) := rfl

/-- Settles O27: the cause is the byte cursor's if that is 4 or above, else the frame cursor's. -/
theorem checkRecordsTheCauseAndNothingElse : Obligations.CheckRecordsTheCauseAndNothingElse := by
  refine ⟨fun S => ?_, fun s => ⟨fun hbyte => ?_, fun hbyte => ?_⟩⟩
  · simp [decode_eq_ok_iff, rows, Row.selects]
  · rw [exec_check, overrunCause_of_le hbyte]
    rfl
  · rw [exec_check, overrunCause_of_lt hbyte]
    rfl

/-- Settles O23: a PUSH that stores keeps the phase; one that completes a word is PUSH.F at the last word of the frame
and PUSH.W before it. -/
theorem phaseTransitionsFollowTheTable : Obligations.PhaseTransitionsFollowTheTable := by
  intro s t i hg hh hf hstep
  have hN : 0 < s.params.channels := hg.1.1
  have h := stepsTo_of_fetch hg.1 hf hstep
  obtain ⟨hhalt, hcheck⟩ := h.selects.ne_halt_and_ne_check hg hh
  cases h with
  | reset => exact phase_eq_accumulating (s := clearBlock (sample s)) hN
  | halt => exact absurd rfl hhalt
  | check => exact absurd rfl hcheck
  | dispatch _ _ _ hfull =>
    exact ⟨phase_eq_dispatching_iff.2 hfull, phase_eq_accumulating (s := dispatched (sample s)) hN⟩
  | idle _ _ _ hroom =>
    exact ⟨_, phase_eq_accumulating hroom, phase_eq_accumulating (s := (sample s).setSrcRead false) hroom⟩
  | @store b rest _ _ hbyte hroom =>
    have hnext := phase_eq_accumulating (s := stored b rest (sample s)) hroom
    match s.byteCursor, hbyte with
    | 0, _ | 1, _ | 2, _ => exact ⟨_, phase_eq_accumulating hroom, hnext⟩
  | @complete b rest w _ _ _ hroom =>
    have hnow := phase_eq_accumulating hroom
    by_cases hlast : s.frameCursor + 1 = s.params.channels
    · have hcursor : s.params.channels - 1 = s.frameCursor := by omega
      rw [show last s = true from decide_eq_true hlast]
      exact ⟨by rw [hnow, hcursor], phase_eq_dispatching_iff.2 hlast⟩
    · have hmore : s.frameCursor + 1 < s.params.channels := by omega
      rw [show last s = false from decide_eq_false hlast]
      exact ⟨_, hnow, phase_eq_accumulating (s := completed b rest w (sample s)) hmore, hmore⟩

/-- PUSH.F is the PUSH of byte cursor 3 at the last word of a frame. -/
theorem pushAt_eq_pushF (hc : c ≤ 3) (h : pushAt c lst d = .pushF b) : c = 3 ∧ lst = true ∧ d = b := by
  match c, hc, lst with
  | 3, _, true => exact ⟨rfl, rfl, Instr.pushF.inj h⟩

/-- The step of a fetched PUSH.F completes the last word of the frame. -/
theorem stepsTo_of_fetch_pushF (hs : s.Shaped) (hf : fetch s = .ok (.pushF b)) :
    s.frameCursor + 1 = s.params.channels ∧ ∃ i rest w, StepsTo s i (completed b rest w (sample s)) := by
  obtain ⟨hrst, hfault, hbyte, hroom, d, rest, hsrc, hpush⟩ := fetch_push_inv hf rfl
  obtain ⟨hcur, hlast, rfl⟩ := pushAt_eq_pushF hbyte hpush.symm
  obtain ⟨w, hword⟩ := hs.exists_groupWord d
  exact ⟨of_decide_eq_true hlast, _, rest, w, .complete hrst hfault hcur hroom hsrc hword⟩

/-- Settles O24: PUSH.F completes the frame, so that without `rst` the next step is DISPATCH. -/
theorem finalPushThenDispatchIsTheFusedForm : Obligations.FinalPushThenDispatchIsTheFusedForm := by
  intro s b hg hf hrst
  obtain ⟨-, hfault, -⟩ := fetch_push_inv hf rfl
  obtain ⟨hfull, i, rest, w, h⟩ := stepsTo_of_fetch_pushF hg.1 hf
  have hdispatch : StepsTo (completed b rest w (sample s)) .dispatch
      (dispatched (sample (completed b rest w (sample s)))) := .dispatch hrst hfault (Nat.zero_le 3) hfull
  refine ⟨_, _, h.step_eq hg.1, hdispatch.step_eq (h.shaped hg.1), rfl, rfl, ?_⟩
  rw [← channelCalls_eq_map_zipIdx]
  exact List.append_assoc _ _ _

end Sys2Proof.Machine
end

section
/-! CLAIM. Reset (70_reset_and_hazards.md): RESET, the state after it, and the ends of a frame (R174). -/

namespace Sys2Proof.Machine

variable {s : State}

theorem params_legal_of_wf {p : Params} (h : p.wf = true) : 1 ≤ p.channels ∧ 4 ≤ p.byteBufCap := by
  simpa [Params.wf] using h

/-- Settles O33: the buffers take the free values of their cells, as many as the parameters say. -/
theorem resetReinitialisesTheBlock : Obligations.ResetReinitialisesTheBlock := by
  refine ⟨fun S => ?_, fun s => ⟨_, _, clearBlock s, ?_, ?_, rfl, rfl, fun hN => phase_eq_accumulating hN⟩⟩
  · simp [decode_eq_ok_iff, rows, Row.selects]
  · simp
  · simp

/-- Settles O34: RESET is selected before all else, and clears any block of legal parameters to a frame start. -/
theorem resetEscapesEveryState : Obligations.ResetEscapesEveryState := by
  intro s hp hrst
  obtain ⟨hN, hcap⟩ := params_legal_of_wf hp
  exact ⟨clearBlock (sample s), step_of_fetch (Selects.reset hrst).fetch_eq,
    clearBlock_atFrameStart (s := sample s) hN hcap, rfl, rfl, rfl⟩

theorem resetWith_atFrameStart {p : Params} (h : p.wf = true) : (State.resetWith p).AtFrameStart := by
  obtain ⟨hN, hcap⟩ := params_legal_of_wf h
  exact ⟨⟨hN, hcap, List.length_replicate, List.length_replicate⟩, rfl, rfl, rfl⟩

/-- Settles O35: the state after reset is at a frame start, where the phase is ACCUMULATING(0). -/
theorem resetStateHasTheStatedValues : Obligations.ResetStateHasTheStatedValues := by
  intro p hp
  have hstart := resetWith_atFrameStart hp
  have hN : 0 < p.channels := (params_legal_of_wf hp).1
  exact ⟨rfl, rfl, rfl, phase_eq_accumulating (s := State.resetWith p) hN, hstart.good, hstart, rfl⟩

theorem betweenFrames_of_cursors_zero (hN : 1 ≤ s.params.channels) (hbyte : s.byteCursor = 0)
    (hframe : s.frameCursor = 0) : betweenFrames s = true := by
  have hdisp : disp s = false := decide_eq_false (by omega)
  simp [betweenFrames, hbyte, hframe, hdisp]

/-- Settles O36: RESET clears both cursors; DISPATCH clears the frame cursor, and a good state dispatches with the byte
cursor 0 already. -/
theorem resetAndDispatchEndBetweenFrames : Obligations.ResetAndDispatchEndBetweenFrames := by
  intro s t hg hf hstep
  have hN : 1 ≤ s.params.channels := hg.1.1
  obtain ⟨-, -, -, hdispatching⟩ := hg
  rcases hf with hf | hf <;> rw [step_of_fetch hf] at hstep
  · cases hstep
    exact betweenFrames_of_cursors_zero hN rfl rfl
  · obtain ⟨-, rfl⟩ := execDispatch_next.1 hstep
    exact betweenFrames_of_cursors_zero hN (hdispatching (frameCursor_of_fetch_dispatch hf)) rfl

end Sys2Proof.Machine
end

section
/-! CLAIM. Faults (60_exceptions.md): who writes the fault register, what the ports show, and that CHECK catches a
broken cursor, which no run from reset reaches. -/

namespace Sys2Proof.Machine

variable {s t : State}

/-- A fetched CHECK raises the fault of the cause on the sampled state. -/
theorem step_of_check (hf : fetch s = .ok .check) : step s = .next (raiseFault (overrunCause s) (sample s)) :=
  step_of_fetch hf

/-- Settles O37: a broken cursor selects CHECK; from reset every step keeps the state good. -/
theorem brokenCursorsAreCaughtByCheck : Obligations.BrokenCursorsAreCaughtByCheck := by
  refine ⟨fun s hfault hrst => ⟨fun hbyte => ?_, fun hbyte hframe => ?_⟩, fun s i hbyte hf => ?_,
    fun k p bs ds t hp hrun => ?_⟩
  · have hf := (Selects.check hrst hfault (by omega)).fetch_eq
    refine ⟨hf, (step_of_check hf).trans ?_⟩
    rw [overrunCause_of_le hbyte]
    rfl
  · have hf := (Selects.check hrst hfault (by omega)).fetch_eq
    refine ⟨hf, (step_of_check hf).trans ?_⟩
    rw [overrunCause_of_lt hbyte]
    rfl
  · by_contra hpush
    obtain ⟨-, -, hle, -⟩ := fetch_push_inv hf (by simpa using hpush)
    omega
  · have hstart : State.Good { State.resetWith p with source := bs, draws := ds } := (resetWith_atFrameStart hp).good
    obtain ⟨⟨-, hbyte, hframe, -⟩, -⟩ := run_invariant (P := State.Good) (R := fun _ _ => True) (fun _ => trivial)
      (fun _ _ => trivial) (fun {s t} hg hstep => ⟨stepKeepsGood s t hg hstep, trivial⟩) k hstart hrun
    exact ⟨hbyte, hframe⟩

/-- Settles O39: a PUSH that is fetched has room in the frame, so that APPEND's fault does not arise. -/
theorem onlyCheckAndResetWriteTheFaultRegister : Obligations.OnlyCheckAndResetWriteTheFaultRegister := by
  intro s t hstep hne
  obtain ⟨i, hf, he⟩ := step_next_iff.1 hstep
  cases fetch_eq_ok_iff.1 hf with
  | reset =>
    cases he
    exact .inr ⟨hf, rfl⟩
  | check _ hfault =>
    cases he
    refine .inl ⟨hf, hfault, ?_⟩
    rcases Nat.lt_or_ge s.byteCursor 4 with hlt | hge
    · exact .inr (overrunCause_of_lt (Nat.le_of_lt_succ hlt))
    · exact .inl (overrunCause_of_le hge)
  | halt | idle =>
    cases he
    exact absurd rfl hne
  | dispatch =>
    obtain ⟨-, rfl⟩ := execDispatch_next.1 he
    exact absurd rfl hne
  | push _ _ _ hroom =>
    obtain ⟨hkept, -⟩ := exec_push_fault_byteCursor (s := sample s) (isPush_pushAt _ _ _) hroom he
    exact absurd hkept hne

/-- Settles O40: each of the three values of the register has its own code. -/
theorem faultPortsShowTheRegister : Obligations.FaultPortsShowTheRegister := by
  intro s
  unfold faultCodePort faultPort faulted
  cases s.fault <;> decide

end Sys2Proof.Machine
end

section
/-! CLAIM. The stimulus runner (R82): which lines wait, and what a line adds to the operations and the unread bytes. -/

namespace Sys2Proof.Machine

variable {l : Line} {r r' : Runner} {i j : Instr} {s t u : State} {fuel : Nat} {b : Byte}

theorem settle_of_not_waits (h : waits l r.state = false) : settle l (fuel + 1) r = some r := by
  simp [settle, h]

theorem settle_of_waits (h : waits l r.state = true) (ht : takeStep l r = some r') :
    settle l (fuel + 1) r = settle l fuel r' := by
  simp [settle, h, ht]

/-- The runner after a step of operation `i` that led to `t`: the ports are empty again. -/
def Runner.after (i : Instr) (t : State) (r : Runner) : Runner :=
  { r with state := (t.setSource []).setDraws [], ops := r.ops ++ [i] }

theorem takeStep_of_stepsTo (hs : r.state.Shaped) (h : StepsTo (present l r.state) i t) :
    takeStep l r = some (r.after i t) := by
  have hexec := h.step_eq (s := present l r.state) hs
  rw [step_of_fetch h.selects.fetch_eq] at hexec
  exact takeStep_of_exec h.selects.fetch_eq hexec

theorem waits_eq_true (h : StepsTo (present l s) i t) (hi : i = .dispatch ∨ i = .check) : waits l s = true :=
  waits_iff.2 (hi.imp (fun hi => h.selects.fetch_eq.trans (congrArg Except.ok hi))
    fun hi => h.selects.fetch_eq.trans (congrArg Except.ok hi))

theorem waits_eq_false (h : StepsTo (present l s) i t) (hi : i ≠ .dispatch ∧ i ≠ .check) : waits l s = false := by
  rw [Bool.eq_false_iff, ne_eq, waits_iff, h.selects.fetch_eq]
  rintro (h | h)
  · exact hi.1 (Except.ok.inj h)
  · exact hi.2 (Except.ok.inj h)

/-- A line whose operation does not wait is consumed at once. -/
theorem runLine_of_stepsTo (hs : r.state.Shaped) (h : StepsTo (present l r.state) i t)
    (hi : i ≠ .dispatch ∧ i ≠ .check) :
    runLine l r = some { r.after i t with unread := r.unread ++ leftUnread l t } := by
  rw [runLine, settleFuel, settle_of_not_waits (waits_eq_false h hi), Option.bind_some, takeStep_of_stepsTo hs h]
  rfl

/-- A line that waits for one step is consumed by the next. -/
theorem runLine_after_wait (hs : r.state.Shaped) (hwait : StepsTo (present l r.state) j u)
    (hj : j = .dispatch ∨ j = .check) (h : StepsTo (present l u) i t) (hi : i ≠ .dispatch ∧ i ≠ .check) :
    runLine l r = some { (r.after j u).after i t with unread := r.unread ++ leftUnread l t } := by
  have hnext : StepsTo (present l (r.after j u).state) i t := h
  have hsettle : settle l settleFuel r = some (r.after j u) :=
    (settle_of_waits (waits_eq_true hwait hj) (takeStep_of_stepsTo hs hwait)).trans
      (settle_of_not_waits (waits_eq_false hnext hi))
  have hu : u.Shaped := hwait.shaped (s := present l r.state) hs
  have hshaped : (r.after j u).state.Shaped := hu
  rw [runLine, hsettle, Option.bind_some, takeStep_of_stepsTo hshaped hnext]
  rfl

/-- A faulted block halts on a byte line, and leaves its byte unread. -/
theorem stepsTo_halt_of_byte_line (hfault : s.fault ≠ .noFault) :
    StepsTo (present (.byte b) s) .halt ((sample (present (.byte b) s)).setSrcRead false) := .halt rfl hfault

/-- A healthy block at the start of a word reads a byte line's byte with PUSH.B0. -/
theorem stepsTo_pushB0_of_byte_line (hh : s.fault = .noFault) (hbyte : s.byteCursor = 0)
    (hroom : s.frameCursor < s.params.channels) :
    StepsTo (present (.byte b) s) (.pushB0 b) (stored b [] (sample (present (.byte b) s))) := by
  have hcur : (present (.byte b) s).byteCursor = 0 := hbyte
  have h := StepsTo.store (s := present (.byte b) s) (b := b) (rest := []) rfl hh (by omega) hroom rfl
  rw [hcur] at h
  exact h

/-- Settles O49: DISPATCH and CHECK each take one waiting step, after which the line's own step is PUSH.B0 and HALT. -/
theorem runnerLinesWaitForDispatchAndCheck : Obligations.RunnerLinesWaitForDispatchAndCheck := by
  intro r b hs
  refine ⟨fun hg hh hfull => ?_, fun hh hbyte => ?_, fun hh => ?_, ?_⟩
  · have hbyte : r.state.byteCursor = 0 := hg.2.2.2 hfull
    have hwait : StepsTo (present (.byte b) r.state) .dispatch (dispatched (sample (present (.byte b) r.state))) :=
      .dispatch rfl hh hg.2.1 hfull
    have hpush := stepsTo_pushB0_of_byte_line (s := dispatched (sample (present (.byte b) r.state))) (b := b) hh hbyte
      hs.1
    exact ⟨_, runLine_after_wait hs hwait (.inl rfl) hpush ⟨Instr.noConfusion, Instr.noConfusion⟩,
      List.append_assoc _ _ _, List.append_nil _⟩
  · have hwait : StepsTo (present (.byte b) r.state) .check _ := .check rfl hh fun h => absurd h.1 (Nat.not_le.2 hbyte)
    have hfault : overrunCause r.state ≠ .noFault := by rw [overrunCause_of_le hbyte]; exact FaultCode.noConfusion
    refine ⟨_, runLine_after_wait hs hwait (.inr rfl) (stepsTo_halt_of_byte_line hfault)
      ⟨Instr.noConfusion, Instr.noConfusion⟩, List.append_assoc _ _ _, rfl⟩
  · exact ⟨_, runLine_of_stepsTo hs (stepsTo_halt_of_byte_line hh) ⟨Instr.noConfusion, Instr.noConfusion⟩, rfl, rfl⟩
  · have hreset : StepsTo (present .reset r.state) .reset _ := .reset rfl
    exact ⟨_, runLine_of_stepsTo hs hreset ⟨Instr.noConfusion, Instr.noConfusion⟩, rfl,
      clearBlock_atFrameStart (s := present .reset r.state) hs.1 hs.2.1⟩

end Sys2Proof.Machine
end
